-- ==== Sys2Proof/Word.lean ====
section
/-! DEFINITION. The word types of the block: bytes, 16-bit registers, pin levels and millisecond times.

Every value of the block is unsigned (spec/00_scope.md R6). Lengths, indices and totals are natural numbers (R6, R200),
and only what the spec shifts, masks or stores in a register is a bit vector. -/

namespace Sys2Proof

/-- A byte of a buffer, an 8-bit register or the IMM field of a command word. -/
abbrev Byte := BitVec 8

/-- A 16-bit register or command word. -/
abbrev Half := BitVec 16

/-- A 32-bit millisecond timestamp: NOW, SW_LAST0 and SW_LAST1 (TS_W = 32, spec/00_scope.md R5). -/
abbrev Time := BitVec 32

/-- The level of an input pin: 0 = LOW (pressed), 1 = HIGH (open) (spec/10_state.md R30). -/
abbrev Level := BitVec 1

end Sys2Proof
end

