-- ==== Sys2Proof/Syntax.lean ====
section
/-! DEFINITION. The commands: one constructor per row of spec/opcode_table.json.

Every command word is OPC [15:8] and IMM [7:0] (spec/30_encoding.md R61), and the row fixes OPC. So each constructor carries
the IMM byte, which the command's pseudocode names. What IMM means for each command is in Machine/Operands.lean (R63), and
which of its bits must be 0 is in WellFormed.lean. -/

namespace Sys2Proof

/-- The nine commands of spec/30_encoding.md R62. -/
inductive Instr where
  /-- BUILD: IMM is the type byte TYPE. -/
  | build (imm : Byte)
  /-- PRESETREQ: IMM must be 0x00. -/
  | presetreq (imm : Byte)
  /-- CKSUM: IMM[0] is SEL, and IMM[7:1] must be 0. -/
  | cksum (imm : Byte)
  /-- LOCATE: IMM must be 0x00. -/
  | locate (imm : Byte)
  /-- DECOP: IMM must be 0x00. -/
  | decop (imm : Byte)
  /-- DECPRE: IMM must be 0x00. -/
  | decpre (imm : Byte)
  /-- DECLEN: IMM must be 0x00. -/
  | declen (imm : Byte)
  /-- SWINIT: IMM[0] is the contact index, and IMM[7:1] must be 0. -/
  | swinit (imm : Byte)
  /-- SWPOLL: IMM[0] is the contact index, and IMM[7:1] must be 0. -/
  | swpoll (imm : Byte)
  deriving DecidableEq, Repr

/-- The IMM byte a command carries. -/
def Instr.imm : Instr → Byte
  | .build m => m
  | .presetreq m => m
  | .cksum m => m
  | .locate m => m
  | .decop m => m
  | .decpre m => m
  | .declen m => m
  | .swinit m => m
  | .swpoll m => m

end Sys2Proof
end

