-- ==== Sys2Proof/WellFormed.lean ====
section
/-! DEFINITION. When a command is one the encoding has: the IMM bits that must be 0 are 0 (spec/30_encoding.md R63). -/

namespace Sys2Proof

/-- No IMM bit is set that R63 requires to be 0: any IMM for BUILD, 0 or 1 for CKSUM, SWINIT and SWPOLL (IMM[7:1] = 0), and
0x00 for the others. -/
def Instr.wellFormed : Instr → Bool
  | .build _ => true
  | .presetreq m => m == 0x00#8
  | .cksum m => m == 0x00#8 || m == 0x01#8
  | .locate m => m == 0x00#8
  | .decop m => m == 0x00#8
  | .decpre m => m == 0x00#8
  | .declen m => m == 0x00#8
  | .swinit m => m == 0x00#8 || m == 0x01#8
  | .swpoll m => m == 0x00#8 || m == 0x01#8

end Sys2Proof
end

