-- ==== Sys2Proof/Decode.lean ====
section
/-! DEFINITION. The command word: the decoder, total on all 65536 words and rejecting by name, and the encoder
(spec/30_encoding.md R61 to R65).

Decoding depends on the word alone (R65). A word whose OPC is not listed, or that sets a required-zero IMM bit, is illegal
(R64). -/

namespace Sys2Proof

/-- Why a command word is illegal (R64). -/
inductive DecodeError where
  /-- OPC is 0x00, 0x08 to 0x0F or 0x12 to 0xFF. -/
  | unlistedOpc
  /-- An IMM bit is 1 that R63 requires to be 0. -/
  | requiredZeroImm
  deriving DecidableEq, Repr

/-- OPC, bits [15:8] (R61). -/
def opcOf (w : Half) : Byte := w.extractLsb' 8 8

/-- IMM, bits [7:0] (R61). -/
def immOf (w : Half) : Byte := w.extractLsb' 0 8

/-- The command of an OPC with an IMM, or none for an OPC that R62 does not list. -/
def instrOf (opc imm : Byte) : Option Instr :=
  if opc = 0x01#8 then some (.build imm)
  else if opc = 0x02#8 then some (.presetreq imm)
  else if opc = 0x03#8 then some (.cksum imm)
  else if opc = 0x04#8 then some (.locate imm)
  else if opc = 0x05#8 then some (.decop imm)
  else if opc = 0x06#8 then some (.decpre imm)
  else if opc = 0x07#8 then some (.declen imm)
  else if opc = 0x10#8 then some (.swinit imm)
  else if opc = 0x11#8 then some (.swpoll imm)
  else none

/-- The IMM bits of a command's mask in spec/opcode_table.json, which are the bits that must be 0 (R63): none for BUILD,
bits [7:1] for CKSUM, SWINIT and SWPOLL, and all for the others. -/
def Instr.immMask : Instr → Byte
  | .build _ => 0x00#8
  | .presetreq _ => 0xFF#8
  | .cksum _ => 0xFE#8
  | .locate _ => 0xFF#8
  | .decop _ => 0xFF#8
  | .decpre _ => 0xFF#8
  | .declen _ => 0xFF#8
  | .swinit _ => 0xFE#8
  | .swpoll _ => 0xFE#8

/-- The command a word selects, or the name of what makes it illegal (R62 to R65). -/
def decode (w : Half) : Except DecodeError Instr :=
  match instrOf (opcOf w) (immOf w) with
  | none => .error .unlistedOpc
  | some i => if i.imm &&& i.immMask = 0x00#8 then .ok i else .error .requiredZeroImm

/-- The OPC of a command (R62). -/
def Instr.opc : Instr → Byte
  | .build _ => 0x01#8
  | .presetreq _ => 0x02#8
  | .cksum _ => 0x03#8
  | .locate _ => 0x04#8
  | .decop _ => 0x05#8
  | .decpre _ => 0x06#8
  | .declen _ => 0x07#8
  | .swinit _ => 0x10#8
  | .swpoll _ => 0x11#8

/-- The word of a command: OPC above IMM (R61). -/
def encode (i : Instr) : Half := i.opc ++ i.imm

/-- The command the decoder reads from an instruction of `nbits` bits `w`, numbered as spec/opcode_table.json numbers them.
A command is one 16-bit word (R61), so a number with a bit above bit 15 is no command word. -/
def decodeTableWord (nbits w : Nat) : Option Instr :=
  let v := w % 2 ^ nbits
  if v < 2 ^ 16 then (decode (BitVec.ofNat 16 v)).toOption else none

end Sys2Proof
end

