-- ==== Sys2Proof/Config.lean ====
section
/-! DEFINITION. The implementation parameters of spec/00_scope.md R5 and the free values.

HIST_W = 8 and TS_W = 32 are the types Byte and Time. HDR_BYTES = 14 and N_CONTACTS = 2 are the frame's shape and the type
Contact. CRC_XOROUT = 0x00 means that no final XOR is applied (D11), so there is no constant for it.

A free value is a constant with no body, so that no proof can depend on which value it is
(spec/93_implementation_defined.md: 'any value' and 'parameter'). -/

namespace Sys2Proof.Config

/-- TX_CAP: bytes in TX_BUF. -/
abbrev txCap : Nat := 1024
/-- PAYLOAD_CAP: bytes in PAYLOAD_BUF (D15). -/
abbrev payloadCap : Nat := 256
/-- CK_WORK_CAP: reconstructed bytes the checksum work buffer holds. -/
abbrev ckWorkCap : Nat := 64
/-- CK_SRC_MAX: the most nibble-source bytes a checksum covers. -/
abbrev ckSrcMax : Nat := 128
/-- LEN_MAX: the largest payload length the length field holds. -/
abbrev lenMax : Nat := 255
/-- DEB_MASK: the debounce mask. -/
abbrev debMask : Byte := 0xC7#8
/-- CLOSE_PAT: the masked history that latches CLOSED. -/
abbrev closePat : Byte := 0x07#8
/-- OPEN_PAT: the masked history that latches OPENED. -/
abbrev openPat : Byte := 0xC0#8
/-- POLL_INTERVAL: milliseconds of the poll gate. -/
abbrev pollInterval : Nat := 10
/-- CRC_POLY: the CRC-8 polynomial, its x^8 term implicit. -/
abbrev crcPoly : Byte := 0x07#8
/-- CRC_INIT: the CRC-8 initial value. -/
abbrev crcInit : Byte := 0x00#8

/-- RX_CAP, the OPEN parameter of the model, 0 <= RX_CAP <= 65535 (R5, D16). DESIGN CHOICE (log entry 5): State carries
the parameter, and this is the value State.reset takes. -/
opaque rxCap : Half

/-- Byte `i` of the unspecified buffer contents of draw `n`. DESIGN CHOICE (log entry 3). -/
opaque freeByte : Nat → Nat → Byte

/-- What CRC_ACC holds between commands, at draw `n` (unspecified, spec/10_state.md R26). DESIGN CHOICE (log entry 4). -/
opaque freeCrcAcc : Nat → Byte

/-- What WCUR holds between commands, at draw `n` (unspecified, spec/10_state.md R26). DESIGN CHOICE (log entry 4). -/
opaque freeWcur : Nat → Nat

/-- The level on PIN[0] in State.reset: the environment's (R30). DESIGN CHOICE (log entry 2). -/
opaque freePin0 : Level

/-- The level on PIN[1] in State.reset: the environment's (R30). DESIGN CHOICE (log entry 2). -/
opaque freePin1 : Level

/-- The time on NOW in State.reset: the environment's (R31). DESIGN CHOICE (log entry 2). -/
opaque freeNow : Time

end Sys2Proof.Config
end

