-- ==== Sys2Proof/Machine/State.lean ====
section
/-! DEFINITION. The state of the block as plain data, the reasons a step can stop, and the state after reset.

spec/10_state.md gives the registers (R10 to R23), the hidden state (R26), the debouncer state per contact (R27), the input
ports (R30, R31), the buffers (R32) and the reset values (R33). -/

namespace Sys2Proof.Machine

/-- The two contacts (R27): `c0` is the source's contact 1 and `c1` its contact 2 (D24). -/
inductive Contact where
  | c0
  | c1
  deriving DecidableEq, Repr

/-- A contact's state latch. The register bit is 1 for CLOSED and 0 for OPENED (R28). -/
inductive Latch where
  | opened
  | closed
  deriving DecidableEq, Repr

/-- The state of one contact (R27): SW_HIST, SW_STATE.ST, SW_LAST and SW_STATE.INIT. -/
structure ContactState where
  /-- SW_HIST<c>: bit 0 is the newest sample, and a bit of 1 is a pressed sample (R22). -/
  hist  : Byte
  /-- SW_STATE.ST<c> (R21). -/
  latch : Latch
  /-- SW_LAST<c> (R23). -/
  last  : Time
  /-- SW_STATE.INIT<c> (R21). -/
  init  : Bool
  deriving DecidableEq, Repr

/-- What the unlisted bytes of a buffer are: 0x00 after a build zeroed it (spec/20_memory.md R40), or the unspecified bytes
of draw `n` (R33, R105). DESIGN CHOICE (log entry 3). -/
inductive Fill where
  | zero
  | draw (n : Nat)
  deriving DecidableEq, Repr

/-- One byte buffer (spec/20_memory.md R40 to R43): what its unlisted bytes are, and the listed bytes by rising index. -/
structure Memory where
  fill  : Fill
  cells : List Host.Cell
  deriving DecidableEq, Repr

/-- The host-visible registers of R10, which are at register numbers 0x0 to 0xE in this order. -/
inductive Reg where
  | cmd
  | status
  | argLen
  | argBase
  | rxLen
  | txLen
  | ckOut
  | locIdx
  | decOut
  | pos
  | swState
  | swHist0
  | swHist1
  | swLast0
  | swLast1
  deriving DecidableEq, Repr

/-- The buffers a host access can name (R32). CK_WORK is hidden: no host access reaches it (R26). -/
inductive HostBuffer where
  | txBuf
  | payloadBuf
  | rxBuf
  deriving DecidableEq, Repr

/-- A host access: of a register by number (R10), or of one byte of a buffer by index (spec/20_memory.md R47). -/
inductive HostAccess where
  | writeReg (number value : Nat)
  | readReg (number : Nat)
  | writeByte (buffer : HostBuffer) (index : Nat) (value : Byte)
  | readByte (buffer : HostBuffer) (index : Nat)
  deriving DecidableEq, Repr

/-- What can happen to the block next: a host access, a change of an input port by the environment
(spec/30_encoding.md R70, ENV), or reset (spec/70_reset_and_hazards.md R180). DESIGN CHOICE (log entries 1 and 2). -/
inductive Event where
  | host (access : HostAccess)
  | pin (contact : Contact) (level : Level)
  | now (time : Time)
  | reset
  deriving DecidableEq, Repr

/-- The state. -/
structure State where
  /-- CMD, register 0x0: the last word written (R11). -/
  cmd        : Half
  /-- STATUS, register 0x1: ERR [3:0] and POLL_TAKEN [4] (R12). -/
  status     : Half
  /-- ARG_LEN, register 0x2 (R13). -/
  argLen     : Half
  /-- ARG_BASE, register 0x3 (R14). -/
  argBase    : Half
  /-- RX_LEN, register 0x4 (R15). -/
  rxLen      : Half
  /-- TX_LEN, register 0x5 (R16). -/
  txLen      : Half
  /-- CK_OUT, register 0x6 (R17). -/
  ckOut      : Byte
  /-- LOC_IDX, register 0x7 (R18). -/
  locIdx     : Half
  /-- DEC_OUT, register 0x8 (R19). -/
  decOut     : Byte
  /-- Contact 0: SW_HIST0, SW_LAST0 and its bits of SW_STATE (R21 to R23, R27). -/
  contact0   : ContactState
  /-- Contact 1: SW_HIST1, SW_LAST1 and its bits of SW_STATE (R21 to R23, R27). -/
  contact1   : ContactState
  /-- TX_BUF (spec/20_memory.md R40). -/
  txBuf      : Memory
  /-- PAYLOAD_BUF (spec/20_memory.md R41). -/
  payloadBuf : Memory
  /-- RX_BUF (spec/20_memory.md R42). -/
  rxBuf      : Memory
  /-- CK_WORK, hidden (R26). -/
  ckWork     : Memory
  /-- CRC_ACC, hidden (R26). -/
  crcAcc     : Byte
  /-- WCUR, hidden (R26). -/
  wcur       : Nat
  /-- RX_CAP, the parameter of the model: no step changes it (spec/00_scope.md R5, log entry 5). -/
  rxCap      : Half
  /-- The level on input port PIN[0] (R30). -/
  pin0       : Level
  /-- The level on input port PIN[1] (R30). -/
  pin1       : Level
  /-- The time on input port NOW (R31). -/
  now        : Time
  /-- The MODEL's own field: what the host, the environment and reset do next, the first one first (log entry 1). -/
  inbox      : List Event
  /-- The MODEL's own field: the value the last host read returned (log entry 7). -/
  lastRead   : BitVec 32
  /-- The MODEL's own field: the number of the next free draw (log entries 3 and 4). -/
  draws      : Nat
  deriving DecidableEq, Repr

/-- The ways the machine can stop with a fault. -/
inductive Fault where
  /-- Raised by CKSUM TX when its region, within TX_LEN, runs past the 1024 bytes of TX_BUF. It needs TX_LEN > 1024, which
  no run reaches (TX_LEN <= 134, spec/00_scope.md R200). Safe (log entry 6). -/
  | txBufOverrun
  deriving DecidableEq, Repr

/-- The accesses that have no meaning, so that the host has no step (spec/93_implementation_defined.md I14). -/
inductive Refusal where
  /-- Raised by exec for a command that has no meaning in this model: none at present. Safe. -/
  | notModelled (mnemonic : String)
  /-- Raised by a host access to a register number from 0xF upward (R25). Safe. -/
  | noSuchRegister
  /-- Raised by a host access at an index at or beyond a buffer's capacity (spec/20_memory.md R44). Safe. -/
  | beyondCapacity
  /-- Raised by a host write to TX_BUF (spec/20_memory.md R44). Safe. -/
  | txBufReadOnly
  deriving DecidableEq, Repr

/-- A contact after reset: OPENED, history 0x00, timestamp 0, not initialised (R33). -/
def ContactState.reset : ContactState :=
  { hist := 0x00#8, latch := .opened, last := 0#32, init := false }

/-- The state a reset leaves (R33, R180), given what reset does not touch: the parameter, the input ports, the pending
events, the host's last read and the number `n` of the next free draw. Buffers and hidden state are unspecified. -/
def State.resetFrom (n : Nat) (rxCap : Half) (pin0 pin1 : Level) (now : Time) (inbox : List Event)
    (lastRead : BitVec 32) : State where
  cmd := 0x0000#16
  status := 0x0000#16
  argLen := 0#16
  argBase := 0#16
  rxLen := 0#16
  txLen := 0#16
  ckOut := 0x00#8
  locIdx := 0xFFFF#16
  decOut := 0xFF#8
  contact0 := ContactState.reset
  contact1 := ContactState.reset
  txBuf := { fill := .draw n, cells := [] }
  payloadBuf := { fill := .draw (n + 1), cells := [] }
  rxBuf := { fill := .draw (n + 2), cells := [] }
  ckWork := { fill := .draw (n + 3), cells := [] }
  crcAcc := Config.freeCrcAcc n
  wcur := Config.freeWcur n
  rxCap := rxCap
  pin0 := pin0
  pin1 := pin1
  now := now
  inbox := inbox
  lastRead := lastRead
  draws := n + 4

/-- The machine right after reset (R33): no event pending, and the ports and the parameter at free values. -/
def State.reset : State :=
  State.resetFrom 0 Config.rxCap Config.freePin0 Config.freePin1 Config.freeNow [] 0#32

end Sys2Proof.Machine
end

