-- ==== Sys2Proof/Machine/Flags.lean ====
section
/-! DEFINITION. The block's only flags, ERR and POLL_TAKEN of STATUS (spec/10_state.md R12, R29), and the error codes
(spec/60_exceptions.md R160). -/

namespace Sys2Proof.Machine

/-- The result codes of STATUS.ERR (R160). -/
inductive Err where
  | ok
  | illegal
  | capacity
  | lenField
  | ckBound
  | region
  | notFound
  | fieldRange
  | uninit
  deriving DecidableEq, Repr

/-- The code of a result (R160). Codes 9 to 15 are never produced. -/
def Err.code : Err → BitVec 4
  | .ok => 0#4
  | .illegal => 1#4
  | .capacity => 2#4
  | .lenField => 3#4
  | .ckBound => 4#4
  | .region => 5#4
  | .notFound => 6#4
  | .fieldRange => 7#4
  | .uninit => 8#4

/-- The word of STATUS: ERR in [3:0], POLL_TAKEN in [4], and [15:5] 0 (R12). -/
def statusWord (e : Err) (pollTaken : Bool) : Half :=
  0#11 ++ BitVec.ofBool pollTaken ++ e.code

/-- STATUS.ERR, bits [3:0] (R12). -/
def errOf (status : Half) : BitVec 4 := status.extractLsb' 0 4

/-- STATUS.POLL_TAKEN, bit [4] (R12). -/
def pollTakenOf (status : Half) : Bool := status.getLsbD 4

/-- The reserved bits [15:5] of STATUS (R12). -/
def statusReserved (status : Half) : BitVec 11 := status.extractLsb' 5 11

end Sys2Proof.Machine
end

