-- ==== Sys2Proof/Machine/Operands.lean ====
section
/-! DEFINITION. The operand forms of IMM (spec/30_encoding.md R63) and the nibble operations (spec/20_memory.md R45, R46). -/

namespace Sys2Proof.Machine

/-- Some bit of IMM is set (PRESETREQ, LOCATE, DECOP, DECPRE and DECLEN require 0x00, R63). -/
def immNonzero (imm : Byte) : Bool := imm != 0x00#8

/-- Some bit of IMM[7:1] is set (CKSUM, SWINIT and SWPOLL require 0, R63). -/
def immHighNonzero (imm : Byte) : Bool := imm &&& 0xFE#8 != 0x00#8

/-- SEL = IMM[0] of CKSUM: true selects RX_BUF with limit RX_LEN, false TX_BUF with limit TX_LEN (R63). -/
def selectsRx (imm : Byte) : Bool := imm.getLsbD 0

/-- The contact c = IMM[0] of SWINIT and SWPOLL (R63). -/
def contactOf (imm : Byte) : Contact := if imm.getLsbD 0 then .c1 else .c0

/-- The high nibble b[7:4] (spec/00_scope.md R6). -/
def highNibble (b : Byte) : BitVec 4 := b.extractLsb' 4 4

/-- The low nibble b[3:0] (spec/00_scope.md R6). -/
def lowNibble (b : Byte) : BitVec 4 := b.extractLsb' 0 4

/-- The nibble split of a byte: its high nibble in the first byte, its low nibble in the second, bits [7:4] of both 0
(spec/41_encoder.md R100). -/
def split (v : Byte) : Byte × Byte := ((highNibble v).setWidth 8, (lowNibble v).setWidth 8)

/-- The nibble join of two bytes: the first supplies the high nibble, and bits [7:4] of both are ignored
(spec/42_decoder.md R121). -/
def join (a b : Byte) : Byte := lowNibble a ++ lowNibble b

end Sys2Proof.Machine
end

