-- ==== Sys2Proof/Machine/Ops.lean ====
section
/-! DEFINITION. The operations over buffers and registers that the commands share, and raising an error.

The block has no trap, no saved state and no return from one (spec/60_exceptions.md R165, R166): what other machines do by
taking an exception, this one does by `raise Err(code)` (spec/00_scope.md R7), which is `State.raise` here. -/

namespace Sys2Proof.Machine

/-! ### Byte buffers -/

/-- The byte listed at an index, if there is one. -/
def lookupCell (k : Nat) : List Host.Cell → Option Byte
  | [] => none
  | (a, b) :: rest => if a = k then some b else lookupCell k rest

/-- The list with byte `v` at index `k`, kept in rising order. -/
def insertCell (k : Nat) (v : Byte) : List Host.Cell → List Host.Cell
  | [] => [(k, v)]
  | (a, b) :: rest =>
    if k < a then (k, v) :: (a, b) :: rest
    else if k = a then (k, v) :: rest
    else (a, b) :: insertCell k v rest

/-- The list without index `k`. -/
def eraseCell (k : Nat) (cells : List Host.Cell) : List Host.Cell :=
  cells.filter (fun c => c.1 != k)

/-- What an unlisted byte reads as: 0x00 in a zeroed buffer (spec/20_memory.md R40), otherwise the unspecified byte of the
buffer's draw (spec/10_state.md R33). -/
def Fill.background : Fill → Nat → Byte
  | .zero, _ => 0x00#8
  | .draw n, i => Config.freeByte n i

/-- MemRead(B, i) (spec/00_scope.md R7). -/
def Memory.read (m : Memory) (i : Nat) : Byte :=
  (lookupCell i m.cells).getD (m.fill.background i)

/-- MemWrite(B, i, v) (spec/00_scope.md R7). Writing 0x00 to a zeroed buffer lists nothing. -/
def Memory.write (m : Memory) (i : Nat) (v : Byte) : Memory :=
  if m.fill = .zero ∧ v = 0x00#8 then { m with cells := eraseCell i m.cells }
  else { m with cells := insertCell i v m.cells }

/-- The buffer with every byte 0x00. -/
def Memory.zeroed : Memory := { fill := .zero, cells := [] }

/-- A buffer with every byte unspecified: those of draw `n`. -/
def Memory.unspecified (n : Nat) : Memory := { fill := .draw n, cells := [] }

/-- Writes successive bytes from index `i` on. -/
def Memory.writeList (m : Memory) (i : Nat) : List Byte → Memory
  | [] => m
  | v :: rest => (m.write i v).writeList (i + 1) rest

/-- The bytes B[b], B[b+1], ..., `n` of them. -/
def Memory.region (m : Memory) (b n : Nat) : List Byte :=
  (List.range n).map (fun k => m.read (b + k))

/-- The canonical form of a buffer of `cap` bytes: rising indices below `cap`, and in a zeroed buffer no entry that is 0x00. -/
abbrev Memory.wf (cap : Nat) (m : Memory) : Prop :=
  m.cells.Pairwise (fun x y => x.1 < y.1) ∧ ∀ c ∈ m.cells, c.1 < cap ∧ (m.fill = .zero → c.2 ≠ 0x00#8)

/-! ### Registers and ports -/

/-- The state of contact c. -/
def State.contact (s : State) : Contact → ContactState
  | .c0 => s.contact0
  | .c1 => s.contact1

/-- The state with contact c replaced, the other contact untouched (R27). -/
def State.setContact (s : State) (c : Contact) (k : ContactState) : State :=
  match c with
  | .c0 => { s with contact0 := k }
  | .c1 => { s with contact1 := k }

/-- sample(PIN[c]) (spec/10_state.md R30). -/
def State.pin (s : State) : Contact → Level
  | .c0 => s.pin0
  | .c1 => s.pin1

/-! ### Ending a command -/

/-- STATUS <- {ERR = OK, POLL_TAKEN}: how a command that completes ends. -/
def State.complete (s : State) (pollTaken : Bool) : State :=
  { s with status := statusWord .ok pollTaken }

/-- raise Err(code): STATUS <- {ERR = code, POLL_TAKEN = 0} (spec/60_exceptions.md R162). The command's failure values are
written by the command. -/
def State.raise (s : State) (e : Err) : State :=
  { s with status := statusWord e false }

/-- TX_BUF with every byte unspecified, as a failed build leaves it (spec/41_encoder.md R105). -/
def State.scrambleTx (s : State) : State :=
  { s with txBuf := Memory.unspecified s.draws, draws := s.draws + 1 }

/-- CK_WORK, CRC_ACC and WCUR unspecified, as they are between commands (spec/10_state.md R26). -/
def State.forgetHidden (s : State) : State :=
  { s with
    ckWork := Memory.unspecified s.draws
    crcAcc := Config.freeCrcAcc s.draws
    wcur := Config.freeWcur s.draws
    draws := s.draws + 1 }

end Sys2Proof.Machine
end

