-- ==== Sys2Proof/Machine/Checksum.lean ====
section
/-! DEFINITION. The checksum: nibble packer, CRC-8 accumulator and the command CKSUM (spec/40_checksum.md). -/

namespace Sys2Proof.Machine

/-- crc_bit(c): shift left, and XOR the polynomial in when bit 7 was set (R80). -/
def crcBit (c : Byte) : Byte :=
  if c.getLsbD 7 then (c <<< 1) ^^^ Config.crcPoly else c <<< 1

/-- `crcBit` applied n times. -/
def crcBits : Nat → Byte → Byte
  | 0, c => c
  | n + 1, c => crcBits n (crcBit c)

/-- crc_byte(c, b): the byte XORed into the accumulator, then eight bit steps (R83). -/
def crcByte (c b : Byte) : Byte := crcBits 8 (c ^^^ b)

/-- crc8(q): the accumulator folded over the bytes, from CRC_INIT (R83). -/
def crc8 (q : List Byte) : Byte := q.foldl crcByte Config.crcInit

/-- The nibble-source bytes r[3 .. L-2] of a region of L bytes (R81). -/
def nibbleSource (r : List Byte) : List Byte := (r.drop 3).take (r.length - 4)

/-- The nibble packer: each pair gives one byte of its low nibbles, and an unpaired last byte gives nothing (R82). -/
def pack : List Byte → List Byte
  | a :: b :: rest => join a b :: pack rest
  | [_] => []
  | [] => []

/-- checksum(r, L), L the length of the region (R84, R85). -/
def checksum (r : List Byte) : Except Err Byte :=
  if r.length < 4 then .error .region
  else if r.length - 4 > Config.ckSrcMax then .error .ckBound
  else .ok (crc8 (pack (nibbleSource r)))

/-- The micro-sequence of a checksum over region `r`: CK_WORK filled with the reconstructed bytes, CRC_ACC cleared, and
CRC_ACC run over CK_WORK (R87). The result is CRC_ACC. -/
def State.runChecksum (s : State) (r : List Byte) : State :=
  let q := pack (nibbleSource r)
  let work := s.ckWork.writeList 0 q
  { s with
    ckWork := work
    crcAcc := (List.range q.length).foldl (fun c i => crcByte c (work.read i)) Config.crcInit }

/-- The buffer CKSUM reads (R86). -/
def State.cksumBuffer (s : State) (rx : Bool) : Memory := if rx then s.rxBuf else s.txBuf

/-- The limit V of CKSUM's region (R86). -/
def State.cksumLimit (s : State) (rx : Bool) : Nat := if rx then s.rxLen.toNat else s.txLen.toNat

/-- The checks of CKSUM after IMM's, in order (R86; spec/60_exceptions.md R163). -/
def State.cksumCheck (s : State) (rx : Bool) : Option Err :=
  if rx ∧ s.rxLen.toNat > s.rxCap.toNat then some .region
  else if s.argLen.toNat < 4 then some .region
  else if s.argBase.toNat + s.argLen.toNat > s.cksumLimit rx then some .region
  else if s.argLen.toNat - 4 > Config.ckSrcMax then some .ckBound
  else none

/-- CKSUM once its checks pass: the checksum of B[b .. b+L-1] to CK_OUT (R86). -/
def State.cksumRegion (s : State) (rx : Bool) : State :=
  let ran := s.runChecksum ((s.cksumBuffer rx).region s.argBase.toNat s.argLen.toNat)
  State.complete (State.forgetHidden { ran with ckOut := ran.crcAcc }) false

/-- What CKSUM does when it raises an error other than ERR_ILLEGAL: CK_OUT <- 0x00 (R86; spec/60_exceptions.md R162). -/
def State.failCksum (s : State) (e : Err) : State :=
  { s.raise e with ckOut := 0x00#8 }

/-- **CKSUM** (R86). A region within TX_LEN that leaves TX_BUF is a fault that no run reaches (log entry 6). -/
def execCksum (imm : Byte) (s : State) : Host.Outcome State Fault Refusal :=
  if immHighNonzero imm then .next (s.raise .illegal)
  else
    match s.cksumCheck (selectsRx imm) with
    | some e => .next (s.failCksum e)
    | none =>
      if selectsRx imm = false ∧ s.argBase.toNat + s.argLen.toNat > Config.txCap then .fault .txBufOverrun
      else .next (s.cksumRegion (selectsRx imm))

end Sys2Proof.Machine
end

