-- ==== Sys2Proof/Machine/Debouncer.lean ====
section
/-! DEFINITION. The switch debouncer: the commands SWINIT and SWPOLL, and the position output (spec/43_debouncer.md). -/

namespace Sys2Proof.Machine

/-- SWINIT's seed from a pin level: LOW gives CLOSED and history 0xFF, HIGH gives OPENED and history 0x00 (R140). -/
def seedContact (level : Level) (now : Time) : ContactState :=
  if level = 0#1 then { hist := 0xFF#8, latch := .closed, last := now, init := true }
  else { hist := 0x00#8, latch := .opened, last := now, init := true }

/-- **SWINIT** (R140). -/
def execSwinit (imm : Byte) (s : State) : Host.Outcome State Fault Refusal :=
  .next (if immHighNonzero imm then s.raise .illegal
    else (s.setContact (contactOf imm) (seedContact (s.pin (contactOf imm)) s.now)).complete false)

/-- elapsed: the milliseconds from the last poll to t, mod 2^32 (R141). -/
def elapsed (last t : Time) : Nat := (t - last).toNat

/-- The poll gate is open: at least POLL_INTERVAL has elapsed (R141). -/
def gateOpen (last t : Time) : Bool := Config.pollInterval ≤ elapsed last t

/-- shift_in(h, p): the inverted sample enters bit 0, and bit 7 is dropped (R144). -/
def shiftIn (h : Byte) (level : Level) : Byte := (h <<< 1) ||| (~~~level).setWidth 8

/-- The hysteresis comparator and the latch, on a shifted history (R143, R145). -/
def compareHistory (h : Byte) (latch : Latch) : Byte × Latch :=
  if h &&& Config.debMask = Config.closePat then (0xFF#8, .closed)
  else if h &&& Config.debMask = Config.openPat then (0x00#8, .opened)
  else (h, latch)

/-- A taken poll of a contact: the timestamp, the shifted history and the comparator (R142, R143). -/
def ContactState.takePoll (k : ContactState) (level : Level) (t : Time) : ContactState :=
  let r := compareHistory (shiftIn k.hist level) k.latch
  { k with hist := r.1, latch := r.2, last := t }

/-- **SWPOLL** (R143). A closed gate writes STATUS only (R142). -/
def execSwpoll (imm : Byte) (s : State) : Host.Outcome State Fault Refusal :=
  let c := contactOf imm
  .next (if immHighNonzero imm then s.raise .illegal
    else if (s.contact c).init = false then s.raise .uninit
    else if gateOpen (s.contact c).last s.now = false then s.complete false
    else (s.setContact c ((s.contact c).takePoll (s.pin c) s.now)).complete true)

/-- The register bit of a latch: CLOSED = 1, OPENED = 0 (spec/10_state.md R28). -/
def Latch.bit : Latch → BitVec 1
  | .opened => 0#1
  | .closed => 1#1

/-- POS_CODE from the two latches: TOP 1, BOTTOM 2, MIDDLE 0 (R146). -/
def positionCode : Latch → Latch → BitVec 2
  | .closed, .opened => 1#2
  | .opened, .closed => 2#2
  | .opened, .opened => 0#2
  | .closed, .closed => 0#2

/-- The register POS: POS_CODE [1:0] and POS_VALID [2] (R146; spec/10_state.md R20). -/
def State.posWord (s : State) : Half :=
  0#13 ++ BitVec.ofBool (s.contact0.init && s.contact1.init) ++ positionCode s.contact0.latch s.contact1.latch

/-- The register SW_STATE: ST0 [0], ST1 [1], INIT0 [2], INIT1 [3] (spec/10_state.md R21). -/
def State.swStateWord (s : State) : Half :=
  0#12 ++ BitVec.ofBool s.contact1.init ++ BitVec.ofBool s.contact0.init ++ s.contact1.latch.bit ++ s.contact0.latch.bit

end Sys2Proof.Machine
end

