-- ==== Sys2Proof/Machine/Decoder.lean ====
section
/-! DEFINITION. The frame decoder: the commands LOCATE, DECOP, DECPRE and DECLEN (spec/42_decoder.md). -/

namespace Sys2Proof.Machine

/-- locate(B, n): the least index below n that holds 0xF0, or none (R120). -/
def locate (m : Memory) (n : Nat) : Option Nat :=
  (List.range n).find? (fun i => m.read i == 0xF0#8)

/-- What LOCATE does when it raises an error other than ERR_ILLEGAL: LOC_IDX <- 0xFFFF (R122). -/
def State.failLocate (s : State) (e : Err) : State :=
  { s.raise e with locIdx := 0xFFFF#16 }

/-- **LOCATE** (R122). -/
def execLocate (imm : Byte) (s : State) : Host.Outcome State Fault Refusal :=
  .next (if immNonzero imm then s.raise .illegal
    else if s.rxLen.toNat > s.rxCap.toNat then s.failLocate .region
    else match locate s.rxBuf s.rxLen.toNat with
      | none => s.failLocate .notFound
      | some i => State.complete { s with locIdx := BitVec.ofNat 16 i } false)

/-- What decode_field(k) does to DEC_OUT and STATUS when it raises an error other than ERR_ILLEGAL: DEC_OUT <- 0xFF (R123). -/
def State.failDecode (s : State) (e : Err) : State :=
  { s.raise e with decOut := 0xFF#8 }

/-- decode_field(k) (R123): the nibble pair at offsets k and k + 1 from the message start. -/
def State.decodeField (s : State) (imm : Byte) (k : Nat) : State :=
  if immNonzero imm then s.raise .illegal
  else if s.rxLen.toNat > s.rxCap.toNat then s.failDecode .region
  else
    match locate s.rxBuf s.rxLen.toNat with
    | none => s.failDecode .notFound
    | some i =>
      if i + k + 1 ≥ s.rxLen.toNat then s.failDecode .fieldRange
      else State.complete { s with decOut := join (s.rxBuf.read (i + k)) (s.rxBuf.read (i + k + 1)) } false

/-- **DECOP** (R124): the operation type at offsets 11 and 12. -/
def execDecop (imm : Byte) (s : State) : Host.Outcome State Fault Refusal :=
  .next (s.decodeField imm 11)

/-- **DECPRE** (R125): the preset number at offsets 13 and 14. -/
def execDecpre (imm : Byte) (s : State) : Host.Outcome State Fault Refusal :=
  .next (s.decodeField imm 13)

/-- **DECLEN** (R126): the length field at offsets 7 and 8, for frames laid out like the outbound frame (D18). -/
def execDeclen (imm : Byte) (s : State) : Host.Outcome State Fault Refusal :=
  .next (s.decodeField imm 7)

end Sys2Proof.Machine
end

