-- ==== Sys2Proof/Machine/Encoder.lean ====
section
/-! DEFINITION. The frame encoder: the commands BUILD and PRESETREQ (spec/41_encoder.md). -/

namespace Sys2Proof.Machine

/-- emit(v): MemWrite(TX_BUF, WCUR, v); WCUR <- WCUR + 1 (R103). -/
def State.emit (s : State) (v : Byte) : State :=
  { s with txBuf := s.txBuf.write s.wcur v, wcur := s.wcur + 1 }

/-- Emits bytes in order. -/
def State.emitAll (s : State) (vs : List Byte) : State := vs.foldl State.emit s

/-- The bytes BUILD emits before the payload, for a length byte and a type byte: the framing bytes, SysEx start, the
reserved checksum bytes, the vendor identifier, the length field, the class byte and the type byte (R103). -/
def headerBytes (len type : Byte) : List Byte :=
  [0x80#8, 0x80#8, 0xF0#8, 0x00#8, 0x00#8, 0x00#8, 0x01#8, 0x00#8, 0x00#8, (split len).1, (split len).2, 0x01#8, type]

/-- The terminator 0xF7 (R103). -/
def terminator : Byte := 0xF7#8

/-- The checksum of the frame of a type byte and a payload: the CRC-8 of the packed vendor identifier, length field, class
byte, type byte and payload (spec/30_encoding.md R68; spec/40_checksum.md R81). -/
def frameCrc (type : Byte) (payload : List Byte) : Byte :=
  let len : Byte := BitVec.ofNat 8 payload.length
  crc8 (pack ([0x00#8, 0x01#8, 0x00#8, 0x00#8, (split len).1, (split len).2, 0x01#8, type] ++ payload))

/-- The wire-exact frame of a type byte and a payload (spec/30_encoding.md R66). BUILD does not call it: it is what the
emitted bytes and the checksum field amount to. -/
def frame (type : Byte) (payload : List Byte) : List Byte :=
  let len : Byte := BitVec.ofNat 8 payload.length
  let crc := frameCrc type payload
  [0x80#8, 0x80#8, 0xF0#8, (split crc).1, (split crc).2, 0x00#8, 0x01#8, 0x00#8, 0x00#8,
    (split len).1, (split len).2, 0x01#8, type] ++ payload ++ [0xF7#8]

/-- The checks of BUILD in order (R103; spec/60_exceptions.md R163). -/
def buildCheck (len : Nat) : Option Err :=
  if 14 + len > Config.txCap then some .capacity
  else if len > Config.lenMax then some .lenField
  else if 8 + len > Config.ckSrcMax then some .ckBound
  else none

/-- TX_BUF zeroed, WCUR <- 0, and the frame emitted with its checksum field still 0x00 0x00 (R103). -/
def State.emitFrame (s : State) (type : Byte) (payload : List Byte) : State :=
  { s with txBuf := Memory.zeroed, wcur := 0 }.emitAll
    (headerBytes (BitVec.ofNat 8 payload.length) type ++ payload ++ [terminator])

/-- The checksum field: split(crc) into TX_BUF[3] and TX_BUF[4] (R102). -/
def State.writeCrcField (s : State) (crc : Byte) : State :=
  { s with txBuf := (s.txBuf.write 3 (split crc).1).write 4 (split crc).2 }

/-- R103 once its checks pass: the frame of a type byte and a payload, then its checksum field, TX_LEN and STATUS. -/
def State.buildFrame (s : State) (type : Byte) (payload : List Byte) : State :=
  let emitted := s.emitFrame type payload
  let ran := emitted.runChecksum (emitted.txBuf.region 2 (12 + payload.length))
  let framed := ran.writeCrcField ran.crcAcc
  State.complete (State.forgetHidden { framed with txLen := BitVec.ofNat 16 (14 + payload.length) }) false

/-- What a failed BUILD leaves: STATUS, TX_LEN = 0 and TX_BUF unspecified (R105). -/
def State.failBuild (s : State) (e : Err) : State :=
  { (s.raise e).scrambleTx with txLen := 0#16 }

/-- **BUILD** (R103): the frame of PAYLOAD_BUF[0..L-1], L = ARG_LEN, with type byte IMM. -/
def execBuild (imm : Byte) (s : State) : Host.Outcome State Fault Refusal :=
  .next (match buildCheck s.argLen.toNat with
    | some e => s.failBuild e
    | none => s.buildFrame imm (s.payloadBuf.region 0 s.argLen.toNat))

/-- **PRESETREQ** (R106): R103 with L = 2, type 0x02 and payload 0x04, 0x03. -/
def execPresetreq (imm : Byte) (s : State) : Host.Outcome State Fault Refusal :=
  .next (if immNonzero imm then s.raise .illegal else s.buildFrame 0x02#8 [0x04#8, 0x03#8])

end Sys2Proof.Machine
end

