-- ==== Sys2Proof/Machine/Dispatch.lean ====
section
/-! DEFINITION. The meaning of each command. -/

namespace Sys2Proof.Machine

def exec (i : Instr) (s : State) : Host.Outcome State Fault Refusal :=
  match i with
  | .build imm => Sys2Proof.Machine.execBuild imm s
  | .presetreq imm => Sys2Proof.Machine.execPresetreq imm s
  | .cksum imm => Sys2Proof.Machine.execCksum imm s
  | .locate imm => Sys2Proof.Machine.execLocate imm s
  | .decop imm => Sys2Proof.Machine.execDecop imm s
  | .decpre imm => Sys2Proof.Machine.execDecpre imm s
  | .declen imm => Sys2Proof.Machine.execDeclen imm s
  | .swinit imm => Sys2Proof.Machine.execSwinit imm s
  | .swpoll imm => Sys2Proof.Machine.execSwpoll imm s

end Sys2Proof.Machine
end

