-- ==== Sys2Proof/Machine/HostAccess.lean ====
section
/-! DEFINITION. What the host, the environment and reset do to the block: register accesses (spec/10_state.md R10, R11,
R25), buffer accesses (spec/20_memory.md R40 to R44), input ports (R30, R31) and reset (spec/70_reset_and_hazards.md R180). -/

namespace Sys2Proof.Machine

/-- The register at a register number, or none from 0xF upward (R10, R25). -/
def Reg.ofNumber : Nat → Option Reg
  | 0x0 => some .cmd
  | 0x1 => some .status
  | 0x2 => some .argLen
  | 0x3 => some .argBase
  | 0x4 => some .rxLen
  | 0x5 => some .txLen
  | 0x6 => some .ckOut
  | 0x7 => some .locIdx
  | 0x8 => some .decOut
  | 0x9 => some .pos
  | 0xA => some .swState
  | 0xB => some .swHist0
  | 0xC => some .swHist1
  | 0xD => some .swLast0
  | 0xE => some .swLast1
  | _ => none

/-- The value a host read of a register returns, zero-extended to 32 bits (R10). -/
def State.readReg (s : State) : Reg → BitVec 32
  | .cmd => s.cmd.setWidth 32
  | .status => s.status.setWidth 32
  | .argLen => s.argLen.setWidth 32
  | .argBase => s.argBase.setWidth 32
  | .rxLen => s.rxLen.setWidth 32
  | .txLen => s.txLen.setWidth 32
  | .ckOut => s.ckOut.setWidth 32
  | .locIdx => s.locIdx.setWidth 32
  | .decOut => s.decOut.setWidth 32
  | .pos => s.posWord.setWidth 32
  | .swState => s.swStateWord.setWidth 32
  | .swHist0 => s.contact0.hist.setWidth 32
  | .swHist1 => s.contact1.hist.setWidth 32
  | .swLast0 => s.contact0.last
  | .swLast1 => s.contact1.last

/-- A CMD write of the word w: CMD <- w, then the command w encodes, or ERR_ILLEGAL, which writes STATUS only (R11;
spec/30_encoding.md R64). -/
def State.writeCmd (s : State) (w : Half) : Host.Outcome State Fault Refusal :=
  match decode w with
  | .ok i => exec i { s with cmd := w }
  | .error _ => .next (State.raise { s with cmd := w } .illegal)

/-- A host write of a register: CMD starts a command, an RW register takes the value mod 2^16, and a write to a read-only
register changes nothing (R10, R11, R25). -/
def State.writeReg (s : State) (r : Reg) (value : Nat) : Host.Outcome State Fault Refusal :=
  match r with
  | .cmd => s.writeCmd (BitVec.ofNat 16 value)
  | .argLen => .next { s with argLen := BitVec.ofNat 16 value }
  | .argBase => .next { s with argBase := BitVec.ofNat 16 value }
  | .rxLen => .next { s with rxLen := BitVec.ofNat 16 value }
  | .status => .next s
  | .txLen => .next s
  | .ckOut => .next s
  | .locIdx => .next s
  | .decOut => .next s
  | .pos => .next s
  | .swState => .next s
  | .swHist0 => .next s
  | .swHist1 => .next s
  | .swLast0 => .next s
  | .swLast1 => .next s

/-- The buffer a host access names. -/
def State.hostBuffer (s : State) : HostBuffer → Memory
  | .txBuf => s.txBuf
  | .payloadBuf => s.payloadBuf
  | .rxBuf => s.rxBuf

/-- The capacity of a buffer: TX_CAP, PAYLOAD_CAP or RX_CAP (spec/20_memory.md R40 to R42). -/
def State.capacity (s : State) : HostBuffer → Nat
  | .txBuf => Config.txCap
  | .payloadBuf => Config.payloadCap
  | .rxBuf => s.rxCap.toNat

/-- A host write of one byte: refused on TX_BUF and beyond the capacity (spec/20_memory.md R44). -/
def State.hostWriteByte (s : State) (b : HostBuffer) (i : Nat) (v : Byte) : Host.Outcome State Fault Refusal :=
  match b with
  | .txBuf => .refused .txBufReadOnly
  | .payloadBuf =>
    if i < s.capacity .payloadBuf then .next { s with payloadBuf := s.payloadBuf.write i v } else .refused .beyondCapacity
  | .rxBuf =>
    if i < s.capacity .rxBuf then .next { s with rxBuf := s.rxBuf.write i v } else .refused .beyondCapacity

/-- A host read of one byte: refused beyond the capacity, and without any effect on the block (spec/20_memory.md R44). -/
def State.hostReadByte (s : State) (b : HostBuffer) (i : Nat) : Host.Outcome State Fault Refusal :=
  if i < s.capacity b then .next { s with lastRead := ((s.hostBuffer b).read i).setWidth 32 }
  else .refused .beyondCapacity

/-- A host access (spec/00_scope.md R8). -/
def State.hostAccess (s : State) : HostAccess → Host.Outcome State Fault Refusal
  | .writeReg n v =>
    match Reg.ofNumber n with
    | some r => s.writeReg r v
    | none => .refused .noSuchRegister
  | .readReg n =>
    match Reg.ofNumber n with
    | some r => .next { s with lastRead := s.readReg r }
    | none => .refused .noSuchRegister
  | .writeByte b i v => s.hostWriteByte b i v
  | .readByte b i => s.hostReadByte b i

/-- A change of the level on PIN[c] (R30). -/
def State.setPin (s : State) (c : Contact) (level : Level) : State :=
  match c with
  | .c0 => { s with pin0 := level }
  | .c1 => { s with pin1 := level }

/-- Reset (spec/70_reset_and_hazards.md R180): every register and latch to its reset value, buffers and hidden state
unspecified. It samples neither PIN nor NOW, and the pending events stay. -/
def State.applyReset (s : State) : State :=
  State.resetFrom s.draws s.rxCap s.pin0 s.pin1 s.now s.inbox s.lastRead

/-- One event. -/
def State.handle (s : State) : Event → Host.Outcome State Fault Refusal
  | .host a => s.hostAccess a
  | .pin c level => .next (s.setPin c level)
  | .now t => .next { s with now := t }
  | .reset => .next s.applyReset

end Sys2Proof.Machine
end

