-- ==== Sys2Proof/Machine/Step.lean ====
section
/-! DEFINITION. One step: the first pending event, or nothing when none is pending (spec/60_exceptions.md R172: between
commands the block holds its state and does nothing). -/

namespace Sys2Proof.Machine

/-- One step of the machine. -/
def step (s : State) : Host.Outcome State Fault Refusal :=
  match s.inbox with
  | [] => .next s
  | e :: rest => State.handle { s with inbox := rest } e

/-- The state whose next event is the host's CMD write of the command word `w` of `nbits` bits (log entry 1). -/
def State.withFetchWord (s : State) (nbits w : Nat) : State :=
  { s with inbox := .host (.writeReg 0x0 (w % 2 ^ nbits)) :: s.inbox }

end Sys2Proof.Machine
end

