-- ==== Sys2Proof/Safety.lean ====
section
/-! DEFINITION. What counts as a safe state and a safe step, and the runs and views that the statements speak of. -/

namespace Sys2Proof.Machine

/-- A step is safe when it is no fault. A refusal is the host's own inadmissible access, not a failure of the block. -/
def Safe (o : Host.Outcome State Fault Refusal) : Prop := ∀ f, o ≠ .fault f

/-- What is true of every state that a run from reset reaches. -/
structure State.Inv (s : State) : Prop where
  /-- STATUS[15:5] is 0 (spec/10_state.md R12). -/
  status_reserved : statusReserved s.status = 0#11
  /-- ERR is one of the codes 0 to 8 (spec/60_exceptions.md R160). -/
  status_err : (errOf s.status).toNat ≤ 8
  /-- POLL_TAKEN comes with ERR = OK only (spec/60_exceptions.md R162). -/
  status_taken : pollTakenOf s.status = true → errOf s.status = 0#4
  /-- TX_LEN = 0, or TX_BUF holds the TX_LEN bytes of a frame with at most 120 payload bytes and then zeros
  (spec/20_memory.md R40; spec/41_encoder.md R104, R107). -/
  tx_frame : s.txLen = 0#16 ∨ ∃ (type : Byte) (payload : List Byte), payload.length ≤ 120 ∧
    s.txLen.toNat = 14 + payload.length ∧ ∀ i < 1024, s.txBuf.read i = (frame type payload).getD i 0x00#8
  /-- The buffers are in canonical form, within their capacities. -/
  tx_wf : s.txBuf.wf Config.txCap
  payload_wf : s.payloadBuf.wf Config.payloadCap
  rx_wf : s.rxBuf.wf s.rxCap.toNat
  ckWork_wf : s.ckWork.wf Config.ckWorkCap
  /-- A contact that SWINIT has not seeded is as reset left it (spec/10_state.md R21 to R23, R33). -/
  unseeded : ∀ c, (s.contact c).init = false → s.contact c = ContactState.reset
  /-- No history holds a pattern the comparator still acts on: this leaves the 240 histories per latch state of
  spec/95_test_vectors.md V13 (spec/43_debouncer.md R145, R149). -/
  settled : ∀ c, (s.contact c).hist &&& 0xC7#8 ≠ 0x07#8 ∧ (s.contact c).hist &&& 0xC7#8 ≠ 0xC0#8

/-- A run of taken polls of the contact that `imm` selects, one per pin level and time; none if a poll is not taken
(spec/43_debouncer.md R142). -/
def takenPolls (imm : Byte) : List (Level × Time) → State → Option State
  | [], s => some s
  | (p, t) :: rest, s =>
    match exec (.swpoll imm) { s.setPin (contactOf imm) p with now := t } with
    | .next u => if pollTakenOf u.status then takenPolls imm rest u else none
    | .fault _ => none
    | .refused _ => none

/-- A contact after taken polls at the given times with its pin held at `p` (spec/43_debouncer.md R142, R143). -/
def ContactState.heldPolls (k : ContactState) (p : Level) (ts : List Time) : ContactState :=
  ts.foldl (fun k t => k.takePoll p t) k

/-- The no-close set: the histories from which a held press never latches CLOSED (spec/95_test_vectors.md V13;
spec/43_debouncer.md R149). -/
def noCloseHistories : List Byte :=
  [0x0A#8, 0x0E#8, 0x15#8, 0x16#8, 0x1A#8, 0x1D#8, 0x1E#8, 0x2A#8, 0x2B#8, 0x2D#8, 0x2E#8, 0x2F#8,
    0x35#8, 0x36#8, 0x37#8, 0x3A#8, 0x3B#8, 0x3D#8, 0x3E#8, 0x3F#8, 0x4A#8, 0x4E#8, 0x55#8, 0x56#8,
    0x57#8, 0x5A#8, 0x5B#8, 0x5D#8, 0x5E#8, 0x5F#8, 0x6A#8, 0x6B#8, 0x6D#8, 0x6E#8, 0x6F#8, 0x75#8,
    0x76#8, 0x77#8, 0x7A#8, 0x7B#8, 0x7D#8, 0x7E#8, 0x7F#8, 0x8A#8, 0x8E#8, 0x95#8, 0x96#8, 0x9A#8] ++
  [0x9D#8, 0x9E#8, 0xAA#8, 0xAB#8, 0xAD#8, 0xAE#8, 0xAF#8, 0xB5#8, 0xB6#8, 0xB7#8, 0xBA#8, 0xBB#8,
    0xBD#8, 0xBE#8, 0xBF#8, 0xCA#8, 0xCE#8, 0xD5#8, 0xD6#8, 0xD7#8, 0xDA#8, 0xDB#8, 0xDD#8, 0xDE#8,
    0xDF#8, 0xEA#8, 0xEB#8, 0xED#8, 0xEE#8, 0xEF#8, 0xF5#8, 0xF6#8, 0xF7#8, 0xFA#8, 0xFB#8, 0xFD#8,
    0xFE#8, 0xFF#8]

/-- The no-open set: the histories from which a held release never latches OPENED (spec/95_test_vectors.md V13;
spec/43_debouncer.md R149). -/
def noOpenHistories : List Byte :=
  [0x00#8, 0x01#8, 0x02#8, 0x04#8, 0x05#8, 0x08#8, 0x09#8, 0x0A#8, 0x10#8, 0x11#8, 0x12#8, 0x14#8,
    0x15#8, 0x20#8, 0x21#8, 0x22#8, 0x24#8, 0x25#8, 0x28#8, 0x29#8, 0x2A#8, 0x31#8, 0x35#8, 0x40#8,
    0x41#8, 0x42#8, 0x44#8, 0x45#8, 0x48#8, 0x49#8, 0x4A#8, 0x50#8, 0x51#8, 0x52#8, 0x54#8, 0x55#8,
    0x61#8, 0x62#8, 0x65#8, 0x69#8, 0x6A#8, 0x71#8, 0x75#8, 0x80#8, 0x81#8, 0x82#8, 0x84#8, 0x85#8] ++
  [0x88#8, 0x89#8, 0x8A#8, 0x90#8, 0x91#8, 0x92#8, 0x94#8, 0x95#8, 0xA0#8, 0xA1#8, 0xA2#8, 0xA4#8,
    0xA5#8, 0xA8#8, 0xA9#8, 0xAA#8, 0xB1#8, 0xB5#8, 0xC0#8, 0xC1#8, 0xC2#8, 0xC4#8, 0xC5#8, 0xC8#8,
    0xC9#8, 0xCA#8, 0xD0#8, 0xD1#8, 0xD2#8, 0xD4#8, 0xD5#8, 0xE1#8, 0xE2#8, 0xE5#8, 0xE9#8, 0xEA#8,
    0xF1#8, 0xF5#8]

/-- The commands of the debouncer half (spec/00_scope.md R2). -/
def isDebouncerCommand : Instr → Bool
  | .build _ => false
  | .presetreq _ => false
  | .cksum _ => false
  | .locate _ => false
  | .decop _ => false
  | .decpre _ => false
  | .declen _ => false
  | .swinit _ => true
  | .swpoll _ => true

/-- `s` with the debouncer half of `u`: both contacts and the input ports (spec/00_scope.md R1, R2). -/
def State.withDebouncerOf (s u : State) : State :=
  { s with contact0 := u.contact0, contact1 := u.contact1, pin0 := u.pin0, pin1 := u.pin1, now := u.now }

end Sys2Proof.Machine
end

