-- ==== Sys2Proof/Certificates/Slice0/Obligations.lean ====
section
/-! DEFINITION. The statements for the provers. Rules R<n> are those of spec/. -/

open Sys2Proof Sys2Proof.Machine

/-! ### Reset -/

/-- R33. The registers hold the table's values after reset. The buffers and the hidden state are unspecified there, which
the model writes as free values (the model's own form: log entries 3 and 4). -/
def Obligations.ResetHoldsTheTableValues : Prop :=
  let s := State.reset
  s.cmd = 0x0000#16 ∧ s.status = 0x0000#16 ∧ s.argLen = 0#16 ∧ s.argBase = 0#16 ∧ s.rxLen = 0#16 ∧ s.txLen = 0#16 ∧
  s.ckOut = 0x00#8 ∧ s.locIdx = 0xFFFF#16 ∧ s.decOut = 0xFF#8 ∧
  s.readReg .swState = 0#32 ∧ s.readReg .swHist0 = 0#32 ∧ s.readReg .swHist1 = 0#32 ∧
  s.readReg .swLast0 = 0#32 ∧ s.readReg .swLast1 = 0#32 ∧ s.readReg .pos = 0#32 ∧
  (∀ i, s.txBuf.read i = Config.freeByte 0 i) ∧ (∀ i, s.payloadBuf.read i = Config.freeByte 1 i) ∧
  (∀ i, s.rxBuf.read i = Config.freeByte 2 i) ∧ (∀ i, s.ckWork.read i = Config.freeByte 3 i) ∧
  s.crcAcc = Config.freeCrcAcc 0 ∧ s.wcur = Config.freeWcur 0

/-- R180, R33. A reset sets every register and latch, whatever the state before it, makes every buffer byte unspecified,
seeds no contact, and leaves the input ports, the parameter and the pending events (log entries 1, 3 and 8). -/
def Obligations.ResetEventRestoresTheTableValues : Prop :=
  ∀ (s : State) (rest : List Event), s.inbox = .reset :: rest →
    ∃ t, step s = .next t ∧
      t.cmd = 0x0000#16 ∧ t.status = 0x0000#16 ∧ t.argLen = 0#16 ∧ t.argBase = 0#16 ∧ t.rxLen = 0#16 ∧ t.txLen = 0#16 ∧
      t.ckOut = 0x00#8 ∧ t.locIdx = 0xFFFF#16 ∧ t.decOut = 0xFF#8 ∧
      t.contact0 = ⟨0x00#8, .opened, 0#32, false⟩ ∧ t.contact1 = ⟨0x00#8, .opened, 0#32, false⟩ ∧
      (∀ i, t.txBuf.read i = Config.freeByte s.draws i) ∧ (∀ i, t.payloadBuf.read i = Config.freeByte (s.draws + 1) i) ∧
      (∀ i, t.rxBuf.read i = Config.freeByte (s.draws + 2) i) ∧
      t.pin0 = s.pin0 ∧ t.pin1 = s.pin1 ∧ t.now = s.now ∧ t.rxCap = s.rxCap ∧ t.inbox = rest

/-! ### The invariant -/

/-- The invariant holds at reset. -/
def Obligations.ResetMeetsTheInvariant : Prop := State.reset.Inv

/-- Every step keeps the invariant: STATUS stays well formed, TX_BUF[0..TX_LEN-1] stays the frame of the last successful
build, the buffers keep their canonical form, an unseeded contact stays as reset left it, and no history holds a pattern
the comparator still acts on. -/
def Obligations.EveryStepKeepsTheInvariant : Prop :=
  ∀ s t : State, s.Inv → step s = .next t → t.Inv

/-- Under the invariant no step faults. -/
def Obligations.NoStepFaultsUnderTheInvariant : Prop :=
  ∀ s : State, s.Inv → Safe (step s)

/-! ### Command words -/

/-- R62. One word per command, written out from the table. -/
def Obligations.SpecWordsDecodeToTheirCommands : Prop :=
  decode 0b0000000100000010#16 = .ok (.build 0x02#8) ∧
  decode 0b0000001000000000#16 = .ok (.presetreq 0x00#8) ∧
  decode 0b0000001100000001#16 = .ok (.cksum 0x01#8) ∧
  decode 0b0000010000000000#16 = .ok (.locate 0x00#8) ∧
  decode 0b0000010100000000#16 = .ok (.decop 0x00#8) ∧
  decode 0b0000011000000000#16 = .ok (.decpre 0x00#8) ∧
  decode 0b0000011100000000#16 = .ok (.declen 0x00#8) ∧
  decode 0b0001000000000001#16 = .ok (.swinit 0x01#8) ∧
  decode 0b0001000100000001#16 = .ok (.swpoll 0x01#8)

/-- Decode and encode agree in both directions, on every well-formed command and every legal word. -/
def Obligations.DecodeAndEncodeAgree : Prop :=
  (∀ i : Instr, i.wellFormed = true → decode (encode i) = .ok i) ∧
  (∀ (w : Half) (i : Instr), decode w = .ok i → i.wellFormed = true ∧ encode i = w)

/-- R65, R62. The decoder selects a command exactly when the word matches that command's match and mask in the opcode table,
and then takes IMM from bits [7:0]. -/
def Obligations.DecodeMatchesTheOpcodeTable : Prop :=
  ∀ (w : Half) (i : Instr), decode w = .ok i ↔
    ∃ row ∈ ([(0x0100#16, 0xFF00#16, Instr.build), (0x0200#16, 0xFFFF#16, Instr.presetreq),
        (0x0300#16, 0xFFFE#16, Instr.cksum), (0x0400#16, 0xFFFF#16, Instr.locate), (0x0500#16, 0xFFFF#16, Instr.decop),
        (0x0600#16, 0xFFFF#16, Instr.decpre), (0x0700#16, 0xFFFF#16, Instr.declen), (0x1000#16, 0xFFFE#16, Instr.swinit),
        (0x1100#16, 0xFFFE#16, Instr.swpoll)] : List (Half × Half × (Byte → Instr))),
      w &&& row.2.1 = row.1 ∧ i = row.2.2 (BitVec.ofNat 8 (w.toNat % 256))

/-- R11, R60. A host write of CMD stores the word and runs the command it encodes: nothing else happens around exec but that
the event leaves the pending list (the list is the model's choice: log entry 1). R11 speaks of a 16-bit word only; that a
value of 2^16 or more gives its value mod 2^16 is the model's inference from R200 and R25 (DEDUCED: log entry 9). -/
def Obligations.StepRunsTheDecodedCommand : Prop :=
  ∀ (s : State) (v : Nat) (rest : List Event) (i : Instr),
    s.inbox = .host (.writeReg 0x0 v) :: rest → decode (BitVec.ofNat 16 v) = .ok i →
      step s = exec i { s with inbox := rest, cmd := BitVec.ofNat 16 v }

/-- R64. A word with an unlisted OPC or a required-zero IMM bit set raises ERR_ILLEGAL and writes STATUS only (CMD holds the
word written, R11). The pending list is the model's choice (log entry 1), and that a value of 2^16 or more is the word of its
value mod 2^16 is the model's inference from R200 and R25 (DEDUCED: log entry 9); neither is said by R64. -/
def Obligations.IllegalWordWritesStatusOnly : Prop :=
  ∀ (s : State) (v : Nat) (rest : List Event),
    s.inbox = .host (.writeReg 0x0 v) :: rest →
    (let opc := v % 65536 / 256
     let imm := v % 256
     opc = 0x00 ∨ (0x08 ≤ opc ∧ opc ≤ 0x0F) ∨ 0x12 ≤ opc ∨
       ((opc = 0x02 ∨ opc = 0x04 ∨ opc = 0x05 ∨ opc = 0x06 ∨ opc = 0x07) ∧ imm ≠ 0) ∨
       ((opc = 0x03 ∨ opc = 0x10 ∨ opc = 0x11) ∧ imm / 2 ≠ 0)) →
      step s = .next { s with inbox := rest, cmd := BitVec.ofNat 16 v, status := 0x0001#16 }

/-- R162. The check of IMM that each command's pseudocode begins with: a required-zero bit that is set raises ERR_ILLEGAL,
which writes STATUS and nothing else. -/
def Obligations.IllFormedCommandWritesStatusOnly : Prop :=
  ∀ (i : Instr) (s : State), i.wellFormed = false → exec i s = .next { s with status := 0x0001#16 }

/-- R172. With nothing pending the block holds its state and does nothing. -/
def Obligations.IdleBlockHoldsItsState : Prop :=
  ∀ s : State, s.inbox = [] → step s = .next s

/-! ### Checksum -/

/-- R86. CKSUM on a region that passes the checks writes the CRC-8 of the packed bytes B[b+3 .. b+L-2] to CK_OUT, with
STATUS = 0, and changes nothing else but the hidden state. For TX_BUF the region lies within its 1024 bytes (log entry 6). -/
def Obligations.CksumWritesTheRegionChecksum : Prop :=
  ∀ (imm : Byte) (s : State),
    let rx := imm.getLsbD 0
    let b := s.argBase.toNat
    let L := s.argLen.toNat
    let buf := if rx then s.rxBuf else s.txBuf
    imm &&& 0xFE#8 = 0x00#8 →
    (rx = true → s.rxLen.toNat ≤ s.rxCap.toNat ∧ b + L ≤ s.rxLen.toNat) →
    (rx = false → b + L ≤ s.txLen.toNat ∧ b + L ≤ 1024) →
    4 ≤ L → L ≤ 132 →
      ∃ t, exec (.cksum imm) s = .next t ∧
        t = { s with
          ckOut := crc8 (pack ((List.range (L - 4)).map fun k => buf.read (b + 3 + k)))
          status := 0x0000#16
          ckWork := t.ckWork, crcAcc := t.crcAcc, wcur := t.wcur, draws := t.draws }

/-- R86, R163. The checks of CKSUM in their order: every malformed region is ERR_REGION, and only a region that passes is
tested against the bound of 128 nibble-source bytes. Each writes STATUS and CK_OUT = 0x00 only. -/
def Obligations.CksumErrorsInOrder : Prop :=
  ∀ (imm : Byte) (s : State),
    let rx := imm.getLsbD 0
    let b := s.argBase.toNat
    let L := s.argLen.toNat
    let malformed := (rx = true ∧ s.rxLen.toNat > s.rxCap.toNat) ∨ L < 4 ∨
      b + L > (if rx then s.rxLen.toNat else s.txLen.toNat)
    imm &&& 0xFE#8 = 0x00#8 →
      (malformed → exec (.cksum imm) s = .next { s with status := 0x0005#16, ckOut := 0x00#8 }) ∧
      (¬ malformed → L > 132 → exec (.cksum imm) s = .next { s with status := 0x0004#16, ckOut := 0x00#8 })

/-- Every command completes in every state, but for CKSUM TX in states with TX_LEN > 1024, which the invariant rules out
(log entry 6). No command is refused. -/
def Obligations.OnlyCksumBeyondTxBufStops : Prop :=
  ∀ (i : Instr) (s : State),
    (∀ r, exec i s ≠ .refused r) ∧
    ((∃ f, exec i s = .fault f) ↔
      ∃ imm, i = .cksum imm ∧ imm = 0x00#8 ∧ 4 ≤ s.argLen.toNat ∧ s.argLen.toNat ≤ 132 ∧
        s.argBase.toNat + s.argLen.toNat ≤ s.txLen.toNat ∧ 1024 < s.argBase.toNat + s.argLen.toNat)

/-- R80, R82, R83. The spec's worked values of the bit step, the packer and the accumulator. -/
def Obligations.ChecksumWorkedValues : Prop :=
  crcBit 0x80#8 = 0x07#8 ∧ crcBit 0x40#8 = 0x80#8 ∧
  pack [0x00#8, 0x01#8, 0x00#8, 0x00#8, 0x00#8, 0x02#8, 0x01#8, 0x02#8, 0x04#8, 0x03#8] =
    [0x01#8, 0x00#8, 0x02#8, 0x12#8, 0x43#8] ∧
  pack [0xAB#8, 0xCD#8, 0xEF#8] = [0xBD#8] ∧
  crc8 [0x01#8, 0x00#8, 0x02#8, 0x12#8, 0x43#8] = 0x07#8 ∧
  crc8 [0x31#8, 0x32#8, 0x33#8, 0x34#8, 0x35#8, 0x36#8, 0x37#8, 0x38#8, 0x39#8] = 0xF4#8

/-- R88. Two regions of one length whose paired nibble-source bytes agree in their low nibbles have the same checksum. -/
def Obligations.ChecksumReadsOnlyCoveredLowNibbles : Prop :=
  ∀ r r' : List Byte, r.length = r'.length →
    (∀ k, k < 2 * ((r.length - 4) / 2) → (r.getD (3 + k) 0x00#8).toNat % 16 = (r'.getD (3 + k) 0x00#8).toNat % 16) →
      checksum r = checksum r'

/-- R88. Flipping one covered bit, a bit of the low nibble of a paired nibble-source byte, changes the checksum.
R88 marks the sentence this formalises as general knowledge that is not in the source (93_implementation_defined.md, G2); it
follows from R81 to R83 all the same. -/
def Obligations.CoveredBitFlipChangesTheChecksum : Prop :=
  ∀ (r : List Byte) (k j : Nat), r.length ≤ 132 → k < 2 * ((r.length - 4) / 2) → j < 4 →
    ∃ c c', checksum r = .ok c ∧
      checksum (r.set (3 + k) (r.getD (3 + k) 0x00#8 ^^^ BitVec.ofNat 8 (2 ^ j))) = .ok c' ∧ c ≠ c'

/-- R26, R87. What CK_WORK, CRC_ACC and WCUR held before a command reaches nothing but themselves. -/
def Obligations.HiddenStateReachesNoResult : Prop :=
  ∀ (i : Instr) (s t : State) (work : Memory) (acc : Byte) (cur : Nat), exec i s = .next t →
    ∃ u, exec i { s with ckWork := work, crcAcc := acc, wcur := cur } = .next u ∧
      { u with ckWork := t.ckWork, crcAcc := t.crcAcc, wcur := t.wcur } = t

/-! ### Frame encoder -/

/-- R66. A BUILD with L = ARG_LEN <= 120 completes: TX_BUF holds the frame byte for byte and zeros beyond it,
TX_LEN = 14 + L, STATUS = 0, and nothing else changes but the hidden state. -/
def Obligations.BuildWritesTheFrame : Prop :=
  ∀ (imm : Byte) (s : State), s.argLen.toNat ≤ 120 →
    ∃ t, exec (.build imm) s = .next t ∧
      (let L := s.argLen.toNat
       let payload := (List.range L).map fun k => s.payloadBuf.read k
       let crc := crc8 (pack ([0x00#8, 0x01#8, 0x00#8, 0x00#8, BitVec.ofNat 8 (L / 16), BitVec.ofNat 8 (L % 16), 0x01#8, imm]
         ++ payload))
       (∀ i, t.txBuf.read i =
          ([0x80#8, 0x80#8, 0xF0#8, BitVec.ofNat 8 (crc.toNat / 16), BitVec.ofNat 8 (crc.toNat % 16),
            0x00#8, 0x01#8, 0x00#8, 0x00#8, BitVec.ofNat 8 (L / 16), BitVec.ofNat 8 (L % 16), 0x01#8, imm]
           ++ payload ++ [0xF7#8]).getD i 0x00#8) ∧
       t = { s with
          txBuf := t.txBuf, txLen := BitVec.ofNat 16 (14 + L), status := 0x0000#16
          ckWork := t.ckWork, crcAcc := t.crcAcc, wcur := t.wcur, draws := t.draws })

/-- R106. PRESETREQ, the word 0x0200, builds its fixed frame whatever ARG_LEN and PAYLOAD_BUF hold, and with IMM other than
0x00 writes STATUS only. -/
def Obligations.PresetreqWritesItsFrame : Prop :=
  decode 0x0200#16 = .ok (.presetreq 0x00#8) ∧
  ∀ (imm : Byte) (s : State),
    (imm ≠ 0x00#8 → exec (.presetreq imm) s = .next { s with status := 0x0001#16 }) ∧
    (imm = 0x00#8 →
      ∃ t, exec (.presetreq imm) s = .next t ∧
        (∀ i, t.txBuf.read i =
          [0x80#8, 0x80#8, 0xF0#8, 0x00#8, 0x07#8, 0x00#8, 0x01#8, 0x00#8, 0x00#8, 0x00#8, 0x02#8, 0x01#8, 0x02#8,
            0x04#8, 0x03#8, 0xF7#8].getD i 0x00#8) ∧
        t = { s with
          txBuf := t.txBuf, txLen := 16#16, status := 0x0000#16
          ckWork := t.ckWork, crcAcc := t.crcAcc, wcur := t.wcur, draws := t.draws })

/-- R107. BUILD succeeds exactly when L <= 120, and otherwise reports the first limit it exceeds. -/
def Obligations.BuildSucceedsExactlyUpTo120 : Prop :=
  ∀ (imm : Byte) (s : State),
    let L := s.argLen.toNat
    ∃ t, exec (.build imm) s = .next t ∧
      (errOf t.status = 0#4 ↔ L ≤ 120) ∧
      (121 ≤ L → L ≤ 255 → errOf t.status = 4#4) ∧
      (256 ≤ L → L ≤ 1010 → errOf t.status = 3#4) ∧
      (1011 ≤ L → errOf t.status = 2#4)

/-- R105. A failed BUILD leaves TX_LEN = 0 and every byte of TX_BUF unspecified (a fresh free draw: log entry 3), and changes
no other register or buffer but STATUS. -/
def Obligations.FailedBuildLeavesNoFrame : Prop :=
  ∀ (imm : Byte) (s : State), 120 < s.argLen.toNat →
    ∃ t, exec (.build imm) s = .next t ∧
      (∀ i, t.txBuf.read i = Config.freeByte s.draws i) ∧
      t = { s with status := t.status, txLen := 0#16, txBuf := t.txBuf, draws := s.draws + 1 }

/-- R108. After any successful BUILD or PRESETREQ, the checksum of TX_BUF[2..TX_LEN-1] is the embedded field, and CKSUM TX
with ARG_BASE = 2 and ARG_LEN = TX_LEN - 2 (VERIFYTX) leaves it in CK_OUT with ERR = OK. -/
def Obligations.BuildThenCksumReproducesTheField : Prop :=
  ∀ (imm : Byte) (i : Instr) (s t : State), i = .build imm ∨ i = .presetreq imm →
    exec i s = .next t → errOf t.status = 0#4 →
      checksum (t.txBuf.region 2 (t.txLen.toNat - 2)) = .ok (join (t.txBuf.read 3) (t.txBuf.read 4)) ∧
      ∃ u, exec (.cksum 0x00#8) { t with argBase := 2#16, argLen := t.txLen - 2#16 } = .next u ∧
        u.ckOut = join (t.txBuf.read 3) (t.txBuf.read 4) ∧ errOf u.status = 0#4

/-- R187. Two successful builds of one length whose types and paired payload bytes agree in their low nibbles have the same
checksum field: neither bits [7:4] nor the last payload byte of an odd length is covered. -/
def Obligations.UncoveredPayloadBitsLeaveTheChecksumField : Prop :=
  ∀ (imm imm' : Byte) (s s' t t' : State), s.argLen = s'.argLen → s.argLen.toNat ≤ 120 →
    imm.toNat % 16 = imm'.toNat % 16 →
    (∀ k, k < 2 * (s.argLen.toNat / 2) → (s.payloadBuf.read k).toNat % 16 = (s'.payloadBuf.read k).toNat % 16) →
    exec (.build imm) s = .next t → exec (.build imm') s' = .next t' →
      t.txBuf.read 3 = t'.txBuf.read 3 ∧ t.txBuf.read 4 = t'.txBuf.read 4

/-! ### Frame decoder -/

/-- R122. LOCATE, the word 0x0400: the least index below RX_LEN that holds 0xF0, with its errors in order. -/
def Obligations.LocateFindsTheFirstStartByte : Prop :=
  decode 0x0400#16 = .ok (.locate 0x00#8) ∧
  ∀ (imm : Byte) (s : State),
    (imm ≠ 0x00#8 → exec (.locate imm) s = .next { s with status := 0x0001#16 }) ∧
    (imm = 0x00#8 → s.rxLen.toNat > s.rxCap.toNat →
      exec (.locate imm) s = .next { s with status := 0x0005#16, locIdx := 0xFFFF#16 }) ∧
    (imm = 0x00#8 → s.rxLen.toNat ≤ s.rxCap.toNat → (∀ i < s.rxLen.toNat, s.rxBuf.read i ≠ 0xF0#8) →
      exec (.locate imm) s = .next { s with status := 0x0006#16, locIdx := 0xFFFF#16 }) ∧
    (∀ i, imm = 0x00#8 → s.rxLen.toNat ≤ s.rxCap.toNat → i < s.rxLen.toNat → s.rxBuf.read i = 0xF0#8 →
      (∀ j < i, s.rxBuf.read j ≠ 0xF0#8) →
        exec (.locate imm) s = .next { s with status := 0x0000#16, locIdx := BitVec.ofNat 16 i })

/-- R123. The three field decoders, with their offsets (R124 to R126): DEC_OUT is the join of the pair at offsets k and k + 1
from the message start, and their errors in order. LOC_IDX and every buffer stay. -/
def Obligations.FieldDecodersJoinTheirPair : Prop :=
  ∀ field ∈ ([(11, Instr.decop), (13, Instr.decpre), (7, Instr.declen)] : List (Nat × (Byte → Instr))),
  ∀ (imm : Byte) (s : State),
    (imm ≠ 0x00#8 → exec (field.2 imm) s = .next { s with status := 0x0001#16 }) ∧
    (imm = 0x00#8 → s.rxLen.toNat > s.rxCap.toNat →
      exec (field.2 imm) s = .next { s with status := 0x0005#16, decOut := 0xFF#8 }) ∧
    (imm = 0x00#8 → s.rxLen.toNat ≤ s.rxCap.toNat → (∀ i < s.rxLen.toNat, s.rxBuf.read i ≠ 0xF0#8) →
      exec (field.2 imm) s = .next { s with status := 0x0006#16, decOut := 0xFF#8 }) ∧
    (∀ i, imm = 0x00#8 → s.rxLen.toNat ≤ s.rxCap.toNat → i < s.rxLen.toNat → s.rxBuf.read i = 0xF0#8 →
      (∀ j < i, s.rxBuf.read j ≠ 0xF0#8) →
        (s.rxLen.toNat ≤ i + field.1 + 1 →
          exec (field.2 imm) s = .next { s with status := 0x0007#16, decOut := 0xFF#8 }) ∧
        (i + field.1 + 1 < s.rxLen.toNat →
          exec (field.2 imm) s = .next { s with
            status := 0x0000#16
            decOut := BitVec.ofNat 8 ((s.rxBuf.read (i + field.1)).toNat % 16 * 16 +
              (s.rxBuf.read (i + field.1 + 1)).toNat % 16) }))

/-- R100, R121. The nibble split and join: high nibble first, bits [7:4] 0 on the way out and ignored on the way in, and
join inverts split. -/
def Obligations.SplitAndJoinNibbles : Prop :=
  (∀ v : Byte, (split v).1.toNat = v.toNat / 16 ∧ (split v).2.toNat = v.toNat % 16) ∧
  (∀ a b : Byte, (join a b).toNat = a.toNat % 16 * 16 + b.toNat % 16) ∧
  (∀ v : Byte, join (split v).1 (split v).2 = v)

/-- R126. For a frame that a successful BUILD with length L produced, copied into RX_BUF, DECLEN gives L. -/
def Obligations.DeclenInvertsTheLengthField : Prop :=
  ∀ (imm : Byte) (s t u : State), s.argLen.toNat ≤ 120 → exec (.build imm) s = .next t →
    u.rxLen = t.txLen → u.rxLen.toNat ≤ u.rxCap.toNat →
    (∀ i < u.rxLen.toNat, u.rxBuf.read i = t.txBuf.read i) →
      exec (.declen 0x00#8) u = .next { u with status := 0x0000#16, decOut := BitVec.ofNat 8 s.argLen.toNat }

/-- R42. No command reads a byte of RX_BUF at index RX_LEN or above. -/
def Obligations.NoCommandReadsBeyondRxLen : Prop :=
  ∀ (i : Instr) (s t : State) (m : Memory), (∀ j < s.rxLen.toNat, m.read j = s.rxBuf.read j) →
    exec i s = .next t → exec i { s with rxBuf := m } = .next { t with rxBuf := m }

/-! ### Switch debouncer -/

/-- R140. SWINIT, the words 0x1000 and 0x1001, seeds the contact from its pin and NOW, touches neither the other contact nor
anything else but STATUS, and with IMM[7:1] not 0 writes STATUS only. -/
def Obligations.SwinitSeedsTheContact : Prop :=
  decode 0x1000#16 = .ok (.swinit 0x00#8) ∧ decode 0x1001#16 = .ok (.swinit 0x01#8) ∧
  ∀ (imm : Byte) (s : State),
    let c : Contact := if imm.getLsbD 0 then .c1 else .c0
    (imm &&& 0xFE#8 ≠ 0x00#8 → exec (.swinit imm) s = .next { s with status := 0x0001#16 }) ∧
    (imm &&& 0xFE#8 = 0x00#8 →
      ∃ t, exec (.swinit imm) s = .next t ∧
        t.contact c = (if s.pin c = 0#1 then ⟨0xFF#8, .closed, s.now, true⟩ else ⟨0x00#8, .opened, s.now, true⟩) ∧
        (∀ d, d ≠ c → t.contact d = s.contact d) ∧
        t = { s with status := 0x0000#16, contact0 := t.contact0, contact1 := t.contact1 })

/-- R143. SWPOLL, the words 0x1100 and 0x1101: illegal IMM, an unseeded contact, a closed gate, and the taken poll with its
shifted history, comparator and latch. -/
def Obligations.SwpollFollowsGateAndComparator : Prop :=
  decode 0x1100#16 = .ok (.swpoll 0x00#8) ∧ decode 0x1101#16 = .ok (.swpoll 0x01#8) ∧
  ∀ (imm : Byte) (s : State),
    let c : Contact := if imm.getLsbD 0 then .c1 else .c0
    let k := s.contact c
    let since := (s.now.toNat + 2 ^ 32 - k.last.toNat) % 2 ^ 32
    let h : Byte := BitVec.ofNat 8 (k.hist.toNat * 2 + (1 - (s.pin c).toNat))
    let m := h &&& 0b11000111#8
    (imm &&& 0xFE#8 ≠ 0x00#8 → exec (.swpoll imm) s = .next { s with status := 0x0001#16 }) ∧
    (imm &&& 0xFE#8 = 0x00#8 → k.init = false → exec (.swpoll imm) s = .next { s with status := 0x0008#16 }) ∧
    (imm &&& 0xFE#8 = 0x00#8 → k.init = true → since < 10 → exec (.swpoll imm) s = .next { s with status := 0x0000#16 }) ∧
    (imm &&& 0xFE#8 = 0x00#8 → k.init = true → 10 ≤ since →
      ∃ t, exec (.swpoll imm) s = .next t ∧
        t.contact c =
          (if m = 0b00000111#8 then ⟨0xFF#8, .closed, s.now, true⟩
           else if m = 0b11000000#8 then ⟨0x00#8, .opened, s.now, true⟩
           else ⟨h, k.latch, s.now, true⟩) ∧
        (∀ d, d ≠ c → t.contact d = s.contact d) ∧
        t = { s with status := 0x0010#16, contact0 := t.contact0, contact1 := t.contact1 })

/-- R142. A closed gate writes STATUS only; a taken poll sets SW_LAST and POLL_TAKEN; and untaken polls do not push the gate
back: polls 9 ms apart are untaken and then taken. -/
def Obligations.UntakenPollsDoNotMoveTheGate : Prop :=
  ∀ (imm : Byte) (s : State), imm &&& 0xFE#8 = 0x00#8 → (s.contact (contactOf imm)).init = true →
    let last := (s.contact (contactOf imm)).last
    ((s.now - last).toNat < 10 → exec (.swpoll imm) s = .next { s with status := 0x0000#16 }) ∧
    (10 ≤ (s.now - last).toNat →
      ∃ t, exec (.swpoll imm) s = .next t ∧ t.status = 0x0010#16 ∧ (t.contact (contactOf imm)).last = s.now) ∧
    (s.now = last + 9#32 →
      ∃ t u, exec (.swpoll imm) s = .next t ∧ pollTakenOf t.status = false ∧
        exec (.swpoll imm) { t with now := last + 18#32 } = .next u ∧ pollTakenOf u.status = true)

/-- R147. Three taken polls with the pin held latch the other state from a settled history, with the histories of the rule
after each poll. -/
def Obligations.ThreeHeldPollsLatchFromSettled : Prop :=
  ∀ (imm : Byte) (s : State) (t₁ t₂ t₃ : Time),
    let c := contactOf imm
    imm &&& 0xFE#8 = 0x00#8 → (s.contact c).init = true →
    10 ≤ (t₁ - (s.contact c).last).toNat → 10 ≤ (t₂ - t₁).toNat → 10 ≤ (t₃ - t₂).toNat →
      ((s.contact c).latch = .opened → (s.contact c).hist = 0x00#8 →
        ∃ s₁ s₂ s₃, takenPolls imm [(0#1, t₁)] s = some s₁ ∧ takenPolls imm [(0#1, t₂)] s₁ = some s₂ ∧
          takenPolls imm [(0#1, t₃)] s₂ = some s₃ ∧
          s₁.contact c = ⟨0x01#8, .opened, t₁, true⟩ ∧ s₂.contact c = ⟨0x03#8, .opened, t₂, true⟩ ∧
          s₃.contact c = ⟨0xFF#8, .closed, t₃, true⟩) ∧
      ((s.contact c).latch = .closed → (s.contact c).hist = 0xFF#8 →
        ∃ s₁ s₂ s₃, takenPolls imm [(1#1, t₁)] s = some s₁ ∧ takenPolls imm [(1#1, t₂)] s₁ = some s₂ ∧
          takenPolls imm [(1#1, t₃)] s₂ = some s₃ ∧
          s₁.contact c = ⟨0xFE#8, .closed, t₁, true⟩ ∧ s₂.contact c = ⟨0xFC#8, .closed, t₂, true⟩ ∧
          s₃.contact c = ⟨0x00#8, .opened, t₃, true⟩)

/-- R149. When the filter locks out: an unbroken run of taken polls with the pin held latches the held level if and only if
some k in 1..8 brings the shifted history to the pattern. -/
def Obligations.LockOutIsExactlyTheHistoryCondition : Prop :=
  ∀ (imm : Byte) (s : State),
    let c := contactOf imm
    let h := (s.contact c).hist
    imm &&& 0xFE#8 = 0x00#8 → (s.contact c).init = true →
      ((s.contact c).latch = .opened →
        ((∃ (ts : List Time) (u : State), takenPolls imm (ts.map fun t => (0#1, t)) s = some u ∧
            (u.contact c).latch = .closed) ↔
          ∃ k, 1 ≤ k ∧ k ≤ 8 ∧ ((h <<< k) ||| BitVec.ofNat 8 (2 ^ k - 1)) &&& 0xC7#8 = 0x07#8)) ∧
      ((s.contact c).latch = .closed →
        ((∃ (ts : List Time) (u : State), takenPolls imm (ts.map fun t => (1#1, t)) s = some u ∧
            (u.contact c).latch = .opened) ↔
          ∃ k, 1 ≤ k ∧ k ≤ 8 ∧ (h <<< k) &&& 0xC7#8 = 0xC0#8))

/-- R149 and the sets of 95_test_vectors.md V13. The histories from which an OPENED contact never latches CLOSED, however
many polls are taken with the pin held pressed, are exactly the 86 of the no-close set; those from which a CLOSED contact
never latches OPENED, however many are taken with it released, are exactly the 86 of the no-open set, their complements. -/
def Obligations.EightySixHistoriesLockOut : Prop :=
  (∀ k : ContactState, k.latch = .opened →
    ((∀ ts : List Time, (k.heldPolls 0#1 ts).latch = .opened) ↔ k.hist ∈ noCloseHistories)) ∧
  (∀ k : ContactState, k.latch = .closed →
    ((∀ ts : List Time, (k.heldPolls 1#1 ts).latch = .closed) ↔ k.hist ∈ noOpenHistories)) ∧
  noCloseHistories.Nodup ∧ noCloseHistories.length = 86 ∧ noOpenHistories.Nodup ∧ noOpenHistories.length = 86 ∧
  ∀ h : Byte, h ∈ noOpenHistories ↔ ~~~h ∈ noCloseHistories

/-- R145, R141. A SWPOLL that changes the latch samples the new level with the gate open, after two stored samples of the new
level, with the samples now 7 and 8 back (bits 5 and 6 of the history before the poll) of the old one. -/
def Obligations.LatchChangeNeedsItsPattern : Prop :=
  ∀ (imm : Byte) (s t : State),
    let k := s.contact (contactOf imm)
    exec (.swpoll imm) s = .next t → (t.contact (contactOf imm)).latch ≠ k.latch →
      10 ≤ (s.now - k.last).toNat ∧
      ((t.contact (contactOf imm)).latch = .closed →
        s.pin (contactOf imm) = 0#1 ∧ k.hist.getLsbD 0 = true ∧ k.hist.getLsbD 1 = true ∧
          k.hist.getLsbD 5 = false ∧ k.hist.getLsbD 6 = false) ∧
      ((t.contact (contactOf imm)).latch = .opened →
        s.pin (contactOf imm) = 1#1 ∧ k.hist.getLsbD 0 = false ∧ k.hist.getLsbD 1 = false ∧
          k.hist.getLsbD 5 = true ∧ k.hist.getLsbD 6 = true)

/-- R189. A NOW that steps back by d ms opens the gate at once (unless the elapsed time 2^32 - d is below 10), and a gap that
wraps to less than 10 closes it. -/
def Obligations.ClockStepsThatFoolTheGate : Prop :=
  ∀ (imm : Byte) (s : State), imm &&& 0xFE#8 = 0x00#8 → (s.contact (contactOf imm)).init = true →
    let last := (s.contact (contactOf imm)).last
    (∀ d : Nat, 1 ≤ d → d ≤ 2 ^ 32 - 10 → s.now = last - BitVec.ofNat 32 d →
      ∃ t, exec (.swpoll imm) s = .next t ∧ pollTakenOf t.status = true) ∧
    (∀ gap : Nat, 2 ^ 32 ≤ gap → gap < 2 ^ 32 + 10 → s.now = last + BitVec.ofNat 32 gap →
      ∃ t, exec (.swpoll imm) s = .next t ∧ pollTakenOf t.status = false)

/-- R146. The position output, for all four combinations of the latches, with its valid bit. -/
def Obligations.PositionFollowsTheLatches : Prop :=
  ∀ s : State,
    let valid := if s.contact0.init = true ∧ s.contact1.init = true then 4 else 0
    (s.contact0.latch = .closed → s.contact1.latch = .opened → (s.readReg .pos).toNat = valid + 1) ∧
    (s.contact0.latch = .opened → s.contact1.latch = .closed → (s.readReg .pos).toNat = valid + 2) ∧
    (s.contact0.latch = .opened → s.contact1.latch = .opened → (s.readReg .pos).toNat = valid) ∧
    (s.contact0.latch = .closed → s.contact1.latch = .closed → (s.readReg .pos).toNat = valid)

/-! ### Rules about every command -/

/-- R12. Every command writes all of STATUS, from nothing of the old one: its reserved bits are 0, ERR is a code of R160, and
POLL_TAKEN is 1 exactly after a SWPOLL that passed the gate. Nothing but a command (a CMD write) or a reset changes it. -/
def Obligations.EveryCommandWritesAllOfStatus : Prop :=
  (∀ (s t : State) (e : Event) (rest : List Event), s.inbox = e :: rest → step s = .next t → t.status ≠ s.status →
    e = .reset ∨ ∃ v, e = .host (.writeReg 0x0 v)) ∧
  ∀ (i : Instr) (s t : State), exec i s = .next t →
    statusReserved t.status = 0#11 ∧ (errOf t.status).toNat ≤ 8 ∧
    (pollTakenOf t.status = true ↔
      ∃ imm, i = .swpoll imm ∧ imm &&& 0xFE#8 = 0x00#8 ∧ (s.contact (contactOf imm)).init = true ∧
        10 ≤ (s.now - (s.contact (contactOf imm)).last).toNat) ∧
    ∀ v : Half, exec i { s with status := v } = .next t

/-- R162. A command that ends with an error writes STATUS with POLL_TAKEN = 0 and the failure values of its row, and nothing
else; ERR_ILLEGAL writes STATUS only. TX_BUF after a failed BUILD is unspecified (log entry 3). -/
def Obligations.FailingCommandWritesOnlyItsFailureValues : Prop :=
  ∀ (i : Instr) (s t : State), exec i s = .next t → errOf t.status ≠ 0#4 →
    pollTakenOf t.status = false ∧
    if errOf t.status = 1#4 then t = { s with status := t.status }
    else match i with
      | .build _ => t = { s with status := t.status, txLen := 0#16, txBuf := t.txBuf, draws := s.draws + 1 } ∧
          ∀ j, t.txBuf.read j = Config.freeByte s.draws j
      | .presetreq _ => False
      | .cksum _ => t = { s with status := t.status, ckOut := 0x00#8 }
      | .locate _ => t = { s with status := t.status, locIdx := 0xFFFF#16 }
      | .decop _ => t = { s with status := t.status, decOut := 0xFF#8 }
      | .decpre _ => t = { s with status := t.status, decOut := 0xFF#8 }
      | .declen _ => t = { s with status := t.status, decOut := 0xFF#8 }
      | .swinit _ => False
      | .swpoll _ => t = { s with status := t.status }

/-- R16 to R19, R21 to R23. Each result register and each contact is written by its own commands only. -/
def Obligations.ResultsHaveTheirOwnCommands : Prop :=
  ∀ (i : Instr) (s t : State), exec i s = .next t →
    (t.txLen ≠ s.txLen → ∃ imm, i = .build imm ∨ i = .presetreq imm) ∧
    (t.ckOut ≠ s.ckOut → ∃ imm, i = .cksum imm) ∧
    (t.locIdx ≠ s.locIdx → ∃ imm, i = .locate imm) ∧
    (t.decOut ≠ s.decOut → ∃ imm, i = .decop imm ∨ i = .decpre imm ∨ i = .declen imm) ∧
    ∀ c, t.contact c ≠ s.contact c → ∃ imm, (i = .swinit imm ∨ i = .swpoll imm) ∧ contactOf imm = c

/-- R13 to R15, R41, R42. No command writes CMD, ARG_LEN, ARG_BASE, RX_LEN, PAYLOAD_BUF or RX_BUF, nor the input ports, the
parameter RX_CAP, the pending events or the host's last read. -/
def Obligations.CommandsLeaveTheirOperandsAlone : Prop :=
  ∀ (i : Instr) (s t : State), exec i s = .next t →
    t.cmd = s.cmd ∧ t.argLen = s.argLen ∧ t.argBase = s.argBase ∧ t.rxLen = s.rxLen ∧
    (∀ a, t.payloadBuf.read a = s.payloadBuf.read a) ∧ (∀ a, t.rxBuf.read a = s.rxBuf.read a) ∧
    t.rxCap = s.rxCap ∧ t.pin0 = s.pin0 ∧ t.pin1 = s.pin1 ∧ t.now = s.now ∧ t.inbox = s.inbox ∧ t.lastRead = s.lastRead

/-- R40, R62. Only BUILD and PRESETREQ store to a buffer the host can read: after any other command every byte of TX_BUF,
PAYLOAD_BUF and RX_BUF reads as before, and only CKSUM among those touches the hidden state. -/
def Obligations.OtherCommandsStoreNothing : Prop :=
  ∀ (i : Instr) (s t : State), exec i s = .next t → (∀ imm, i ≠ .build imm ∧ i ≠ .presetreq imm) →
    (∀ a, t.txBuf.read a = s.txBuf.read a ∧ t.payloadBuf.read a = s.payloadBuf.read a ∧ t.rxBuf.read a = s.rxBuf.read a) ∧
    t.txLen = s.txLen ∧
    ((∀ imm, i ≠ .cksum imm) →
      t.ckWork = s.ckWork ∧ t.crcAcc = s.crcAcc ∧ t.wcur = s.wcur ∧ t.draws = s.draws)

/-- R1. The codec and the debouncer share no state: a codec command does the same whatever the contacts and the ports hold
and leaves them, and a debouncer command does the same whatever the codec's state is and leaves all of it but STATUS. -/
def Obligations.CodecAndDebouncerShareNoState : Prop :=
  ∀ (i : Instr) (s t u : State), exec i s = .next t →
    (isDebouncerCommand i = false → exec i (s.withDebouncerOf u) = .next (t.withDebouncerOf u)) ∧
    (isDebouncerCommand i = true →
      exec i (u.withDebouncerOf s) = .next (State.withDebouncerOf { u with status := t.status } t))

/-! ### Host, environment -/

/-- R25. Host writes of registers: an RW register takes the value mod 2^16, a write to a read-only register changes nothing,
and a register number from 0xF upward is refused, for reads too. -/
def Obligations.HostRegisterWrites : Prop :=
  ∀ (s : State) (n v : Nat) (rest : List Event), s.inbox = .host (.writeReg n v) :: rest →
    (n = 0x2 → step s = .next { s with inbox := rest, argLen := BitVec.ofNat 16 (v % 2 ^ 16) }) ∧
    (n = 0x3 → step s = .next { s with inbox := rest, argBase := BitVec.ofNat 16 (v % 2 ^ 16) }) ∧
    (n = 0x4 → step s = .next { s with inbox := rest, rxLen := BitVec.ofNat 16 (v % 2 ^ 16) }) ∧
    (n = 0x1 ∨ (0x5 ≤ n ∧ n ≤ 0xE) → step s = .next { s with inbox := rest }) ∧
    (0xF ≤ n → step s = .refused .noSuchRegister ∧
      ∀ u : State, u.inbox = .host (.readReg n) :: rest → step u = .refused .noSuchRegister)

/-- R10, R20, R21. A host read of a register gives the register's value and changes nothing else (the value goes to the
model's own lastRead: log entry 7). -/
def Obligations.HostRegisterReads : Prop :=
  ∀ (s : State) (n : Nat) (rest : List Event), s.inbox = .host (.readReg n) :: rest → n < 0xF →
    ∃ v : BitVec 32, step s = .next { s with inbox := rest, lastRead := v } ∧
      (n = 0x0 → v.toNat = s.cmd.toNat) ∧ (n = 0x1 → v.toNat = s.status.toNat) ∧ (n = 0x2 → v.toNat = s.argLen.toNat) ∧
      (n = 0x3 → v.toNat = s.argBase.toNat) ∧ (n = 0x4 → v.toNat = s.rxLen.toNat) ∧ (n = 0x5 → v.toNat = s.txLen.toNat) ∧
      (n = 0x6 → v.toNat = s.ckOut.toNat) ∧ (n = 0x7 → v.toNat = s.locIdx.toNat) ∧ (n = 0x8 → v.toNat = s.decOut.toNat) ∧
      (n = 0x9 → v = s.readReg .pos) ∧
      (n = 0xA → v.toNat = (if s.contact0.latch = .closed then 1 else 0) + (if s.contact1.latch = .closed then 2 else 0) +
        (if s.contact0.init then 4 else 0) + (if s.contact1.init then 8 else 0)) ∧
      (n = 0xB → v.toNat = s.contact0.hist.toNat) ∧ (n = 0xC → v.toNat = s.contact1.hist.toNat) ∧
      (n = 0xD → v = s.contact0.last) ∧ (n = 0xE → v = s.contact1.last)

/-- R44. Host buffer accesses: refused at or beyond the capacity and for every write to TX_BUF, and otherwise of one byte,
with no side effect on the block. -/
def Obligations.HostBufferAccesses : Prop :=
  ∀ (s : State) (b : HostBuffer) (i : Nat) (v : Byte) (rest : List Event),
    let cap := match b with | .txBuf => 1024 | .payloadBuf => 256 | .rxBuf => s.rxCap.toNat
    let held := match b with | .txBuf => s.txBuf | .payloadBuf => s.payloadBuf | .rxBuf => s.rxBuf
    (s.inbox = .host (.readByte b i) :: rest →
      (cap ≤ i → step s = .refused .beyondCapacity) ∧
      (i < cap → step s = .next { s with inbox := rest, lastRead := BitVec.ofNat 32 (held.read i).toNat })) ∧
    (s.inbox = .host (.writeByte b i v) :: rest →
      (b = .txBuf → step s = .refused .txBufReadOnly) ∧
      (b ≠ .txBuf → cap ≤ i → step s = .refused .beyondCapacity) ∧
      (b ≠ .txBuf → i < cap → ∃ t, step s = .next t ∧
        t = { s with inbox := rest, payloadBuf := t.payloadBuf, rxBuf := t.rxBuf } ∧
        (∀ a, t.payloadBuf.read a = if b = .payloadBuf ∧ a = i then v else s.payloadBuf.read a) ∧
        (∀ a, t.rxBuf.read a = if b = .rxBuf ∧ a = i then v else s.rxBuf.read a)))

/-- R52. A host read of a byte right after a host write of it returns the value written. -/
def Obligations.HostReadsBackWhatItWrote : Prop :=
  ∀ (s t u : State) (b : HostBuffer) (i : Nat) (v : Byte) (rest : List Event),
    s.inbox = .host (.writeByte b i v) :: .host (.readByte b i) :: rest →
    step s = .next t → step t = .next u → u.lastRead.toNat = v.toNat

/-- R30, R31. The environment's events set the input port they name and nothing else (log entry 2). -/
def Obligations.EnvironmentSetsOnlyItsPorts : Prop :=
  ∀ (s : State) (rest : List Event) (p : Level) (t : Time),
    (s.inbox = .pin .c0 p :: rest → step s = .next { s with inbox := rest, pin0 := p }) ∧
    (s.inbox = .pin .c1 p :: rest → step s = .next { s with inbox := rest, pin1 := p }) ∧
    (s.inbox = .now t :: rest → step s = .next { s with inbox := rest, now := t })
end

