-- ==== Sys2Proof/Laws/Memory.lean ====
section
/-! SUPPORT. The laws of a byte buffer: a read after a write, the bytes a write leaves alone, and the canonical form. -/

namespace Sys2Proof.Machine

/-! ### The parameters of spec/00_scope.md R5 as numerals -/

@[simp] theorem txCap_eq : Config.txCap = 1024 := rfl
@[simp] theorem payloadCap_eq : Config.payloadCap = 256 := rfl
@[simp] theorem ckWorkCap_eq : Config.ckWorkCap = 64 := rfl
@[simp] theorem ckSrcMax_eq : Config.ckSrcMax = 128 := rfl
@[simp] theorem lenMax_eq : Config.lenMax = 255 := rfl
@[simp] theorem pollInterval_eq : Config.pollInterval = 10 := rfl

/-! ### The list of cells -/

theorem lookupCell_insertCell_same (k : Nat) (v : Byte) (l : List Host.Cell) :
    lookupCell k (insertCell k v l) = some v := by
  induction l with
  | nil => simp [insertCell, lookupCell]
  | cons c rest ih =>
    obtain ⟨a, b⟩ := c
    by_cases h1 : k < a
    · simp [insertCell, h1, lookupCell]
    · by_cases h2 : k = a
      · simp [insertCell, h2, lookupCell]
      · simp [insertCell, h1, h2, lookupCell, Ne.symm h2, ih]

theorem lookupCell_insertCell_of_ne (k j : Nat) (v : Byte) (l : List Host.Cell) (h : j ≠ k) :
    lookupCell j (insertCell k v l) = lookupCell j l := by
  induction l with
  | nil => simp [insertCell, lookupCell, Ne.symm h]
  | cons c rest ih =>
    obtain ⟨a, b⟩ := c
    by_cases h1 : k < a
    · simp [insertCell, h1, lookupCell, Ne.symm h]
    · by_cases h2 : k = a
      · subst h2; simp [insertCell, lookupCell, Ne.symm h]
      · simp [insertCell, h1, h2, lookupCell, ih]

theorem lookupCell_eraseCell_same (k : Nat) (l : List Host.Cell) : lookupCell k (eraseCell k l) = none := by
  induction l with
  | nil => rfl
  | cons c rest ih =>
    obtain ⟨a, b⟩ := c
    rw [eraseCell, List.filter_cons] at *
    by_cases h : a = k
    · simpa [h] using ih
    · simpa [h, lookupCell] using ih

theorem lookupCell_eraseCell_of_ne (k j : Nat) (l : List Host.Cell) (h : j ≠ k) :
    lookupCell j (eraseCell k l) = lookupCell j l := by
  induction l with
  | nil => rfl
  | cons c rest ih =>
    obtain ⟨a, b⟩ := c
    rw [eraseCell, List.filter_cons] at *
    by_cases h1 : a = k
    · subst h1; simpa [lookupCell, Ne.symm h] using ih
    · by_cases h2 : a = j
      · simp [h2, lookupCell, h]
      · simpa [h1, h2, lookupCell] using ih

theorem mem_insertCell (k : Nat) (v : Byte) (l : List Host.Cell) (c : Host.Cell) (h : c ∈ insertCell k v l) :
    c = (k, v) ∨ c ∈ l := by
  induction l with
  | nil => left; simpa [insertCell] using h
  | cons d rest ih =>
    obtain ⟨a, b⟩ := d
    rw [insertCell] at h
    split at h
    · simpa using h
    · split at h
      · rcases List.mem_cons.mp h with h | h
        · exact .inl h
        · exact .inr (List.mem_cons_of_mem _ h)
      · rcases List.mem_cons.mp h with h | h
        · exact .inr (by simp [h])
        · exact (ih h).imp_right (List.mem_cons_of_mem _)

theorem pairwise_insertCell (k : Nat) (v : Byte) (l : List Host.Cell) (h : l.Pairwise (fun x y => x.1 < y.1)) :
    (insertCell k v l).Pairwise (fun x y => x.1 < y.1) := by
  induction l with
  | nil => simp [insertCell]
  | cons d rest ih =>
    obtain ⟨a, b⟩ := d
    obtain ⟨hd, hr⟩ := List.pairwise_cons.mp h
    rw [insertCell]
    split
    · next hk =>
      refine List.pairwise_cons.mpr ⟨fun c hc => ?_, h⟩
      rcases List.mem_cons.mp hc with rfl | hc
      · exact hk
      · exact Nat.lt_trans hk (hd c hc)
    · split
      · next hk => subst hk; exact List.pairwise_cons.mpr ⟨hd, hr⟩
      · next h1 h2 =>
        refine List.pairwise_cons.mpr ⟨fun c hc => ?_, ih hr⟩
        rcases mem_insertCell k v rest c hc with rfl | hc
        · simp only at h1 h2 ⊢; omega
        · exact hd c hc

/-! ### Reads and writes -/

@[simp] theorem Memory.read_write_same (m : Memory) (i : Nat) (v : Byte) : (m.write i v).read i = v := by
  rw [Memory.write]
  split
  · next h => simp [Memory.read, lookupCell_eraseCell_same, h.1, h.2, Fill.background]
  · simp [Memory.read, lookupCell_insertCell_same]

theorem Memory.read_write_of_ne (m : Memory) (i j : Nat) (v : Byte) (h : j ≠ i) : (m.write i v).read j = m.read j := by
  rw [Memory.write]
  split
  · simp [Memory.read, lookupCell_eraseCell_of_ne _ _ _ h]
  · simp [Memory.read, lookupCell_insertCell_of_ne _ _ _ _ h]

/-- All that a write does to reads. -/
theorem Memory.read_write (m : Memory) (i j : Nat) (v : Byte) :
    (m.write i v).read j = if j = i then v else m.read j := by
  split
  · next h => subst h; simp
  · next h => exact m.read_write_of_ne i j v h

@[simp] theorem Memory.read_zeroed (i : Nat) : Memory.zeroed.read i = 0x00#8 := rfl

@[simp] theorem Memory.read_unspecified (n i : Nat) : (Memory.unspecified n).read i = Config.freeByte n i := rfl

/-- All that writing successive bytes does to reads. -/
theorem Memory.read_writeList (m : Memory) (i j : Nat) (l : List Byte) :
    (m.writeList i l).read j = if i ≤ j ∧ j < i + l.length then l.getD (j - i) 0x00#8 else m.read j := by
  induction l generalizing m i with
  | nil =>
    rw [Memory.writeList, if_neg (by simp)]
  | cons v rest ih =>
    rw [Memory.writeList, ih, Memory.read_write, List.length_cons]
    by_cases h : i + 1 ≤ j ∧ j < i + 1 + rest.length
    · have e : j - i = (j - (i + 1)) + 1 := by omega
      rw [if_pos h, if_pos (by omega), e, List.getD_cons_succ]
    · rw [if_neg h]
      by_cases hj : j = i
      · subst hj; rw [if_pos rfl, if_pos (by omega)]; simp
      · rw [if_neg hj, if_neg (by omega)]

theorem Memory.writeList_append (m : Memory) (i : Nat) (l₁ l₂ : List Byte) :
    m.writeList i (l₁ ++ l₂) = (m.writeList i l₁).writeList (i + l₁.length) l₂ := by
  induction l₁ generalizing m i with
  | nil => simp [Memory.writeList]
  | cons v rest ih =>
    simp only [List.cons_append, Memory.writeList, ih, List.length_cons]
    congr 1; omega

@[simp] theorem Memory.length_region (m : Memory) (b n : Nat) : (m.region b n).length = n := by
  simp [Memory.region]

theorem Memory.getElem_region (m : Memory) (b n k : Nat) (h : k < (m.region b n).length) :
    (m.region b n)[k] = m.read (b + k) := by
  simp [Memory.region]

theorem Memory.getD_region (m : Memory) (b n k : Nat) (h : k < n) : (m.region b n).getD k 0x00#8 = m.read (b + k) := by
  rw [List.getD_eq_getElem _ _ (by simpa using h), Memory.getElem_region]

/-- A region of a buffer that holds the list `l` from index 0 on is a part of the list. -/
theorem Memory.region_eq_drop (m : Memory) (l : List Byte) (b : Nat)
    (h : ∀ i < l.length, m.read i = l.getD i 0x00#8) : m.region b (l.length - b) = l.drop b := by
  apply List.ext_getElem
  · simp
  · intro k h1 h2
    rw [Memory.getElem_region, h _ (by simp at h1; omega), List.getElem_drop, List.getD_eq_getElem]

/-! ### The canonical form -/

theorem Memory.wf_zeroed (cap : Nat) : Memory.zeroed.wf cap := by
  simp [Memory.wf, Memory.zeroed]

theorem Memory.wf_unspecified (cap n : Nat) : (Memory.unspecified n).wf cap := by
  simp [Memory.wf, Memory.unspecified]

/-- A write below the capacity keeps the canonical form. -/
theorem Memory.wf_write (cap : Nat) (m : Memory) (i : Nat) (v : Byte) (hm : m.wf cap) (hi : i < cap) :
    (m.write i v).wf cap := by
  obtain ⟨hp, hc⟩ := hm
  rw [Memory.write]
  split
  · refine ⟨hp.sublist List.filter_sublist, fun c hmem => hc c ?_⟩
    exact List.filter_sublist.subset hmem
  · next h =>
    refine ⟨pairwise_insertCell i v m.cells hp, fun c hmem => ?_⟩
    rcases mem_insertCell i v m.cells c hmem with rfl | hmem
    · exact ⟨hi, fun hz hv => h ⟨hz, hv⟩⟩
    · exact hc c hmem

theorem Memory.wf_writeList (cap : Nat) (m : Memory) (i : Nat) (l : List Byte) (hm : m.wf cap)
    (hi : i + l.length ≤ cap) : (m.writeList i l).wf cap := by
  induction l generalizing m i with
  | nil => exact hm
  | cons v rest ih =>
    rw [List.length_cons] at hi
    exact ih _ _ (m.wf_write cap i v hm (by omega)) (by omega)

end Sys2Proof.Machine
end

