-- ==== Sys2Proof/Laws/State.lean ====
section
/-! SUPPORT. What each update of the state does to each field. -/

namespace Sys2Proof.Machine

/-! ### `State.raise` -/

@[simp] theorem State.raise_cmd (s : State) (e : Err) : (s.raise e).cmd = s.cmd := rfl
@[simp] theorem State.raise_status (s : State) (e : Err) : (s.raise e).status = statusWord e false := rfl
@[simp] theorem State.raise_argLen (s : State) (e : Err) : (s.raise e).argLen = s.argLen := rfl
@[simp] theorem State.raise_argBase (s : State) (e : Err) : (s.raise e).argBase = s.argBase := rfl
@[simp] theorem State.raise_rxLen (s : State) (e : Err) : (s.raise e).rxLen = s.rxLen := rfl
@[simp] theorem State.raise_txLen (s : State) (e : Err) : (s.raise e).txLen = s.txLen := rfl
@[simp] theorem State.raise_ckOut (s : State) (e : Err) : (s.raise e).ckOut = s.ckOut := rfl
@[simp] theorem State.raise_locIdx (s : State) (e : Err) : (s.raise e).locIdx = s.locIdx := rfl
@[simp] theorem State.raise_decOut (s : State) (e : Err) : (s.raise e).decOut = s.decOut := rfl
@[simp] theorem State.raise_contact0 (s : State) (e : Err) : (s.raise e).contact0 = s.contact0 := rfl
@[simp] theorem State.raise_contact1 (s : State) (e : Err) : (s.raise e).contact1 = s.contact1 := rfl
@[simp] theorem State.raise_txBuf (s : State) (e : Err) : (s.raise e).txBuf = s.txBuf := rfl
@[simp] theorem State.raise_payloadBuf (s : State) (e : Err) : (s.raise e).payloadBuf = s.payloadBuf := rfl
@[simp] theorem State.raise_rxBuf (s : State) (e : Err) : (s.raise e).rxBuf = s.rxBuf := rfl
@[simp] theorem State.raise_ckWork (s : State) (e : Err) : (s.raise e).ckWork = s.ckWork := rfl
@[simp] theorem State.raise_crcAcc (s : State) (e : Err) : (s.raise e).crcAcc = s.crcAcc := rfl
@[simp] theorem State.raise_wcur (s : State) (e : Err) : (s.raise e).wcur = s.wcur := rfl
@[simp] theorem State.raise_rxCap (s : State) (e : Err) : (s.raise e).rxCap = s.rxCap := rfl
@[simp] theorem State.raise_pin0 (s : State) (e : Err) : (s.raise e).pin0 = s.pin0 := rfl
@[simp] theorem State.raise_pin1 (s : State) (e : Err) : (s.raise e).pin1 = s.pin1 := rfl
@[simp] theorem State.raise_now (s : State) (e : Err) : (s.raise e).now = s.now := rfl
@[simp] theorem State.raise_inbox (s : State) (e : Err) : (s.raise e).inbox = s.inbox := rfl
@[simp] theorem State.raise_lastRead (s : State) (e : Err) : (s.raise e).lastRead = s.lastRead := rfl
@[simp] theorem State.raise_draws (s : State) (e : Err) : (s.raise e).draws = s.draws := rfl

/-! ### `State.complete` -/

@[simp] theorem State.complete_cmd (s : State) (b : Bool) : (s.complete b).cmd = s.cmd := rfl
@[simp] theorem State.complete_status (s : State) (b : Bool) : (s.complete b).status = statusWord .ok b := rfl
@[simp] theorem State.complete_argLen (s : State) (b : Bool) : (s.complete b).argLen = s.argLen := rfl
@[simp] theorem State.complete_argBase (s : State) (b : Bool) : (s.complete b).argBase = s.argBase := rfl
@[simp] theorem State.complete_rxLen (s : State) (b : Bool) : (s.complete b).rxLen = s.rxLen := rfl
@[simp] theorem State.complete_txLen (s : State) (b : Bool) : (s.complete b).txLen = s.txLen := rfl
@[simp] theorem State.complete_ckOut (s : State) (b : Bool) : (s.complete b).ckOut = s.ckOut := rfl
@[simp] theorem State.complete_locIdx (s : State) (b : Bool) : (s.complete b).locIdx = s.locIdx := rfl
@[simp] theorem State.complete_decOut (s : State) (b : Bool) : (s.complete b).decOut = s.decOut := rfl
@[simp] theorem State.complete_contact0 (s : State) (b : Bool) : (s.complete b).contact0 = s.contact0 := rfl
@[simp] theorem State.complete_contact1 (s : State) (b : Bool) : (s.complete b).contact1 = s.contact1 := rfl
@[simp] theorem State.complete_txBuf (s : State) (b : Bool) : (s.complete b).txBuf = s.txBuf := rfl
@[simp] theorem State.complete_payloadBuf (s : State) (b : Bool) : (s.complete b).payloadBuf = s.payloadBuf := rfl
@[simp] theorem State.complete_rxBuf (s : State) (b : Bool) : (s.complete b).rxBuf = s.rxBuf := rfl
@[simp] theorem State.complete_ckWork (s : State) (b : Bool) : (s.complete b).ckWork = s.ckWork := rfl
@[simp] theorem State.complete_crcAcc (s : State) (b : Bool) : (s.complete b).crcAcc = s.crcAcc := rfl
@[simp] theorem State.complete_wcur (s : State) (b : Bool) : (s.complete b).wcur = s.wcur := rfl
@[simp] theorem State.complete_rxCap (s : State) (b : Bool) : (s.complete b).rxCap = s.rxCap := rfl
@[simp] theorem State.complete_pin0 (s : State) (b : Bool) : (s.complete b).pin0 = s.pin0 := rfl
@[simp] theorem State.complete_pin1 (s : State) (b : Bool) : (s.complete b).pin1 = s.pin1 := rfl
@[simp] theorem State.complete_now (s : State) (b : Bool) : (s.complete b).now = s.now := rfl
@[simp] theorem State.complete_inbox (s : State) (b : Bool) : (s.complete b).inbox = s.inbox := rfl
@[simp] theorem State.complete_lastRead (s : State) (b : Bool) : (s.complete b).lastRead = s.lastRead := rfl
@[simp] theorem State.complete_draws (s : State) (b : Bool) : (s.complete b).draws = s.draws := rfl

/-! ### `State.scrambleTx` -/

@[simp] theorem State.scrambleTx_cmd (s : State) : (s.scrambleTx).cmd = s.cmd := rfl
@[simp] theorem State.scrambleTx_status (s : State) : (s.scrambleTx).status = s.status := rfl
@[simp] theorem State.scrambleTx_argLen (s : State) : (s.scrambleTx).argLen = s.argLen := rfl
@[simp] theorem State.scrambleTx_argBase (s : State) : (s.scrambleTx).argBase = s.argBase := rfl
@[simp] theorem State.scrambleTx_rxLen (s : State) : (s.scrambleTx).rxLen = s.rxLen := rfl
@[simp] theorem State.scrambleTx_txLen (s : State) : (s.scrambleTx).txLen = s.txLen := rfl
@[simp] theorem State.scrambleTx_ckOut (s : State) : (s.scrambleTx).ckOut = s.ckOut := rfl
@[simp] theorem State.scrambleTx_locIdx (s : State) : (s.scrambleTx).locIdx = s.locIdx := rfl
@[simp] theorem State.scrambleTx_decOut (s : State) : (s.scrambleTx).decOut = s.decOut := rfl
@[simp] theorem State.scrambleTx_contact0 (s : State) : (s.scrambleTx).contact0 = s.contact0 := rfl
@[simp] theorem State.scrambleTx_contact1 (s : State) : (s.scrambleTx).contact1 = s.contact1 := rfl
@[simp] theorem State.scrambleTx_txBuf (s : State) : (s.scrambleTx).txBuf = Memory.unspecified s.draws := rfl
@[simp] theorem State.scrambleTx_payloadBuf (s : State) : (s.scrambleTx).payloadBuf = s.payloadBuf := rfl
@[simp] theorem State.scrambleTx_rxBuf (s : State) : (s.scrambleTx).rxBuf = s.rxBuf := rfl
@[simp] theorem State.scrambleTx_ckWork (s : State) : (s.scrambleTx).ckWork = s.ckWork := rfl
@[simp] theorem State.scrambleTx_crcAcc (s : State) : (s.scrambleTx).crcAcc = s.crcAcc := rfl
@[simp] theorem State.scrambleTx_wcur (s : State) : (s.scrambleTx).wcur = s.wcur := rfl
@[simp] theorem State.scrambleTx_rxCap (s : State) : (s.scrambleTx).rxCap = s.rxCap := rfl
@[simp] theorem State.scrambleTx_pin0 (s : State) : (s.scrambleTx).pin0 = s.pin0 := rfl
@[simp] theorem State.scrambleTx_pin1 (s : State) : (s.scrambleTx).pin1 = s.pin1 := rfl
@[simp] theorem State.scrambleTx_now (s : State) : (s.scrambleTx).now = s.now := rfl
@[simp] theorem State.scrambleTx_inbox (s : State) : (s.scrambleTx).inbox = s.inbox := rfl
@[simp] theorem State.scrambleTx_lastRead (s : State) : (s.scrambleTx).lastRead = s.lastRead := rfl
@[simp] theorem State.scrambleTx_draws (s : State) : (s.scrambleTx).draws = s.draws + 1 := rfl

/-! ### `State.forgetHidden` -/

@[simp] theorem State.forgetHidden_cmd (s : State) : (s.forgetHidden).cmd = s.cmd := rfl
@[simp] theorem State.forgetHidden_status (s : State) : (s.forgetHidden).status = s.status := rfl
@[simp] theorem State.forgetHidden_argLen (s : State) : (s.forgetHidden).argLen = s.argLen := rfl
@[simp] theorem State.forgetHidden_argBase (s : State) : (s.forgetHidden).argBase = s.argBase := rfl
@[simp] theorem State.forgetHidden_rxLen (s : State) : (s.forgetHidden).rxLen = s.rxLen := rfl
@[simp] theorem State.forgetHidden_txLen (s : State) : (s.forgetHidden).txLen = s.txLen := rfl
@[simp] theorem State.forgetHidden_ckOut (s : State) : (s.forgetHidden).ckOut = s.ckOut := rfl
@[simp] theorem State.forgetHidden_locIdx (s : State) : (s.forgetHidden).locIdx = s.locIdx := rfl
@[simp] theorem State.forgetHidden_decOut (s : State) : (s.forgetHidden).decOut = s.decOut := rfl
@[simp] theorem State.forgetHidden_contact0 (s : State) : (s.forgetHidden).contact0 = s.contact0 := rfl
@[simp] theorem State.forgetHidden_contact1 (s : State) : (s.forgetHidden).contact1 = s.contact1 := rfl
@[simp] theorem State.forgetHidden_txBuf (s : State) : (s.forgetHidden).txBuf = s.txBuf := rfl
@[simp] theorem State.forgetHidden_payloadBuf (s : State) : (s.forgetHidden).payloadBuf = s.payloadBuf := rfl
@[simp] theorem State.forgetHidden_rxBuf (s : State) : (s.forgetHidden).rxBuf = s.rxBuf := rfl
@[simp] theorem State.forgetHidden_ckWork (s : State) : (s.forgetHidden).ckWork = Memory.unspecified s.draws := rfl
@[simp] theorem State.forgetHidden_crcAcc (s : State) : (s.forgetHidden).crcAcc = Config.freeCrcAcc s.draws := rfl
@[simp] theorem State.forgetHidden_wcur (s : State) : (s.forgetHidden).wcur = Config.freeWcur s.draws := rfl
@[simp] theorem State.forgetHidden_rxCap (s : State) : (s.forgetHidden).rxCap = s.rxCap := rfl
@[simp] theorem State.forgetHidden_pin0 (s : State) : (s.forgetHidden).pin0 = s.pin0 := rfl
@[simp] theorem State.forgetHidden_pin1 (s : State) : (s.forgetHidden).pin1 = s.pin1 := rfl
@[simp] theorem State.forgetHidden_now (s : State) : (s.forgetHidden).now = s.now := rfl
@[simp] theorem State.forgetHidden_inbox (s : State) : (s.forgetHidden).inbox = s.inbox := rfl
@[simp] theorem State.forgetHidden_lastRead (s : State) : (s.forgetHidden).lastRead = s.lastRead := rfl
@[simp] theorem State.forgetHidden_draws (s : State) : (s.forgetHidden).draws = s.draws + 1 := rfl

/-! ### `State.emit` -/

@[simp] theorem State.emit_cmd (s : State) (v : Byte) : (s.emit v).cmd = s.cmd := rfl
@[simp] theorem State.emit_status (s : State) (v : Byte) : (s.emit v).status = s.status := rfl
@[simp] theorem State.emit_argLen (s : State) (v : Byte) : (s.emit v).argLen = s.argLen := rfl
@[simp] theorem State.emit_argBase (s : State) (v : Byte) : (s.emit v).argBase = s.argBase := rfl
@[simp] theorem State.emit_rxLen (s : State) (v : Byte) : (s.emit v).rxLen = s.rxLen := rfl
@[simp] theorem State.emit_txLen (s : State) (v : Byte) : (s.emit v).txLen = s.txLen := rfl
@[simp] theorem State.emit_ckOut (s : State) (v : Byte) : (s.emit v).ckOut = s.ckOut := rfl
@[simp] theorem State.emit_locIdx (s : State) (v : Byte) : (s.emit v).locIdx = s.locIdx := rfl
@[simp] theorem State.emit_decOut (s : State) (v : Byte) : (s.emit v).decOut = s.decOut := rfl
@[simp] theorem State.emit_contact0 (s : State) (v : Byte) : (s.emit v).contact0 = s.contact0 := rfl
@[simp] theorem State.emit_contact1 (s : State) (v : Byte) : (s.emit v).contact1 = s.contact1 := rfl
@[simp] theorem State.emit_txBuf (s : State) (v : Byte) : (s.emit v).txBuf = s.txBuf.write s.wcur v := rfl
@[simp] theorem State.emit_payloadBuf (s : State) (v : Byte) : (s.emit v).payloadBuf = s.payloadBuf := rfl
@[simp] theorem State.emit_rxBuf (s : State) (v : Byte) : (s.emit v).rxBuf = s.rxBuf := rfl
@[simp] theorem State.emit_ckWork (s : State) (v : Byte) : (s.emit v).ckWork = s.ckWork := rfl
@[simp] theorem State.emit_crcAcc (s : State) (v : Byte) : (s.emit v).crcAcc = s.crcAcc := rfl
@[simp] theorem State.emit_wcur (s : State) (v : Byte) : (s.emit v).wcur = s.wcur + 1 := rfl
@[simp] theorem State.emit_rxCap (s : State) (v : Byte) : (s.emit v).rxCap = s.rxCap := rfl
@[simp] theorem State.emit_pin0 (s : State) (v : Byte) : (s.emit v).pin0 = s.pin0 := rfl
@[simp] theorem State.emit_pin1 (s : State) (v : Byte) : (s.emit v).pin1 = s.pin1 := rfl
@[simp] theorem State.emit_now (s : State) (v : Byte) : (s.emit v).now = s.now := rfl
@[simp] theorem State.emit_inbox (s : State) (v : Byte) : (s.emit v).inbox = s.inbox := rfl
@[simp] theorem State.emit_lastRead (s : State) (v : Byte) : (s.emit v).lastRead = s.lastRead := rfl
@[simp] theorem State.emit_draws (s : State) (v : Byte) : (s.emit v).draws = s.draws := rfl

/-! ### `State.writeCrcField` -/

@[simp] theorem State.writeCrcField_cmd (s : State) (crc : Byte) : (s.writeCrcField crc).cmd = s.cmd := rfl
@[simp] theorem State.writeCrcField_status (s : State) (crc : Byte) : (s.writeCrcField crc).status = s.status := rfl
@[simp] theorem State.writeCrcField_argLen (s : State) (crc : Byte) : (s.writeCrcField crc).argLen = s.argLen := rfl
@[simp] theorem State.writeCrcField_argBase (s : State) (crc : Byte) : (s.writeCrcField crc).argBase = s.argBase := rfl
@[simp] theorem State.writeCrcField_rxLen (s : State) (crc : Byte) : (s.writeCrcField crc).rxLen = s.rxLen := rfl
@[simp] theorem State.writeCrcField_txLen (s : State) (crc : Byte) : (s.writeCrcField crc).txLen = s.txLen := rfl
@[simp] theorem State.writeCrcField_ckOut (s : State) (crc : Byte) : (s.writeCrcField crc).ckOut = s.ckOut := rfl
@[simp] theorem State.writeCrcField_locIdx (s : State) (crc : Byte) : (s.writeCrcField crc).locIdx = s.locIdx := rfl
@[simp] theorem State.writeCrcField_decOut (s : State) (crc : Byte) : (s.writeCrcField crc).decOut = s.decOut := rfl
@[simp] theorem State.writeCrcField_contact0 (s : State) (crc : Byte) : (s.writeCrcField crc).contact0 = s.contact0 := rfl
@[simp] theorem State.writeCrcField_contact1 (s : State) (crc : Byte) : (s.writeCrcField crc).contact1 = s.contact1 := rfl
@[simp] theorem State.writeCrcField_txBuf (s : State) (crc : Byte) : (s.writeCrcField crc).txBuf = (s.txBuf.write 3 (split crc).1).write 4 (split crc).2 := rfl
@[simp] theorem State.writeCrcField_payloadBuf (s : State) (crc : Byte) : (s.writeCrcField crc).payloadBuf = s.payloadBuf := rfl
@[simp] theorem State.writeCrcField_rxBuf (s : State) (crc : Byte) : (s.writeCrcField crc).rxBuf = s.rxBuf := rfl
@[simp] theorem State.writeCrcField_ckWork (s : State) (crc : Byte) : (s.writeCrcField crc).ckWork = s.ckWork := rfl
@[simp] theorem State.writeCrcField_crcAcc (s : State) (crc : Byte) : (s.writeCrcField crc).crcAcc = s.crcAcc := rfl
@[simp] theorem State.writeCrcField_wcur (s : State) (crc : Byte) : (s.writeCrcField crc).wcur = s.wcur := rfl
@[simp] theorem State.writeCrcField_rxCap (s : State) (crc : Byte) : (s.writeCrcField crc).rxCap = s.rxCap := rfl
@[simp] theorem State.writeCrcField_pin0 (s : State) (crc : Byte) : (s.writeCrcField crc).pin0 = s.pin0 := rfl
@[simp] theorem State.writeCrcField_pin1 (s : State) (crc : Byte) : (s.writeCrcField crc).pin1 = s.pin1 := rfl
@[simp] theorem State.writeCrcField_now (s : State) (crc : Byte) : (s.writeCrcField crc).now = s.now := rfl
@[simp] theorem State.writeCrcField_inbox (s : State) (crc : Byte) : (s.writeCrcField crc).inbox = s.inbox := rfl
@[simp] theorem State.writeCrcField_lastRead (s : State) (crc : Byte) : (s.writeCrcField crc).lastRead = s.lastRead := rfl
@[simp] theorem State.writeCrcField_draws (s : State) (crc : Byte) : (s.writeCrcField crc).draws = s.draws := rfl

/-! ### `State.failDecode` -/

@[simp] theorem State.failDecode_cmd (s : State) (e : Err) : (s.failDecode e).cmd = s.cmd := rfl
@[simp] theorem State.failDecode_status (s : State) (e : Err) : (s.failDecode e).status = statusWord e false := rfl
@[simp] theorem State.failDecode_argLen (s : State) (e : Err) : (s.failDecode e).argLen = s.argLen := rfl
@[simp] theorem State.failDecode_argBase (s : State) (e : Err) : (s.failDecode e).argBase = s.argBase := rfl
@[simp] theorem State.failDecode_rxLen (s : State) (e : Err) : (s.failDecode e).rxLen = s.rxLen := rfl
@[simp] theorem State.failDecode_txLen (s : State) (e : Err) : (s.failDecode e).txLen = s.txLen := rfl
@[simp] theorem State.failDecode_ckOut (s : State) (e : Err) : (s.failDecode e).ckOut = s.ckOut := rfl
@[simp] theorem State.failDecode_locIdx (s : State) (e : Err) : (s.failDecode e).locIdx = s.locIdx := rfl
@[simp] theorem State.failDecode_decOut (s : State) (e : Err) : (s.failDecode e).decOut = 0xFF#8 := rfl
@[simp] theorem State.failDecode_contact0 (s : State) (e : Err) : (s.failDecode e).contact0 = s.contact0 := rfl
@[simp] theorem State.failDecode_contact1 (s : State) (e : Err) : (s.failDecode e).contact1 = s.contact1 := rfl
@[simp] theorem State.failDecode_txBuf (s : State) (e : Err) : (s.failDecode e).txBuf = s.txBuf := rfl
@[simp] theorem State.failDecode_payloadBuf (s : State) (e : Err) : (s.failDecode e).payloadBuf = s.payloadBuf := rfl
@[simp] theorem State.failDecode_rxBuf (s : State) (e : Err) : (s.failDecode e).rxBuf = s.rxBuf := rfl
@[simp] theorem State.failDecode_ckWork (s : State) (e : Err) : (s.failDecode e).ckWork = s.ckWork := rfl
@[simp] theorem State.failDecode_crcAcc (s : State) (e : Err) : (s.failDecode e).crcAcc = s.crcAcc := rfl
@[simp] theorem State.failDecode_wcur (s : State) (e : Err) : (s.failDecode e).wcur = s.wcur := rfl
@[simp] theorem State.failDecode_rxCap (s : State) (e : Err) : (s.failDecode e).rxCap = s.rxCap := rfl
@[simp] theorem State.failDecode_pin0 (s : State) (e : Err) : (s.failDecode e).pin0 = s.pin0 := rfl
@[simp] theorem State.failDecode_pin1 (s : State) (e : Err) : (s.failDecode e).pin1 = s.pin1 := rfl
@[simp] theorem State.failDecode_now (s : State) (e : Err) : (s.failDecode e).now = s.now := rfl
@[simp] theorem State.failDecode_inbox (s : State) (e : Err) : (s.failDecode e).inbox = s.inbox := rfl
@[simp] theorem State.failDecode_lastRead (s : State) (e : Err) : (s.failDecode e).lastRead = s.lastRead := rfl
@[simp] theorem State.failDecode_draws (s : State) (e : Err) : (s.failDecode e).draws = s.draws := rfl

/-! ### `State.failBuild` -/

@[simp] theorem State.failBuild_cmd (s : State) (e : Err) : (s.failBuild e).cmd = s.cmd := rfl
@[simp] theorem State.failBuild_status (s : State) (e : Err) : (s.failBuild e).status = statusWord e false := rfl
@[simp] theorem State.failBuild_argLen (s : State) (e : Err) : (s.failBuild e).argLen = s.argLen := rfl
@[simp] theorem State.failBuild_argBase (s : State) (e : Err) : (s.failBuild e).argBase = s.argBase := rfl
@[simp] theorem State.failBuild_rxLen (s : State) (e : Err) : (s.failBuild e).rxLen = s.rxLen := rfl
@[simp] theorem State.failBuild_txLen (s : State) (e : Err) : (s.failBuild e).txLen = 0#16 := rfl
@[simp] theorem State.failBuild_ckOut (s : State) (e : Err) : (s.failBuild e).ckOut = s.ckOut := rfl
@[simp] theorem State.failBuild_locIdx (s : State) (e : Err) : (s.failBuild e).locIdx = s.locIdx := rfl
@[simp] theorem State.failBuild_decOut (s : State) (e : Err) : (s.failBuild e).decOut = s.decOut := rfl
@[simp] theorem State.failBuild_contact0 (s : State) (e : Err) : (s.failBuild e).contact0 = s.contact0 := rfl
@[simp] theorem State.failBuild_contact1 (s : State) (e : Err) : (s.failBuild e).contact1 = s.contact1 := rfl
@[simp] theorem State.failBuild_txBuf (s : State) (e : Err) : (s.failBuild e).txBuf = Memory.unspecified s.draws := rfl
@[simp] theorem State.failBuild_payloadBuf (s : State) (e : Err) : (s.failBuild e).payloadBuf = s.payloadBuf := rfl
@[simp] theorem State.failBuild_rxBuf (s : State) (e : Err) : (s.failBuild e).rxBuf = s.rxBuf := rfl
@[simp] theorem State.failBuild_ckWork (s : State) (e : Err) : (s.failBuild e).ckWork = s.ckWork := rfl
@[simp] theorem State.failBuild_crcAcc (s : State) (e : Err) : (s.failBuild e).crcAcc = s.crcAcc := rfl
@[simp] theorem State.failBuild_wcur (s : State) (e : Err) : (s.failBuild e).wcur = s.wcur := rfl
@[simp] theorem State.failBuild_rxCap (s : State) (e : Err) : (s.failBuild e).rxCap = s.rxCap := rfl
@[simp] theorem State.failBuild_pin0 (s : State) (e : Err) : (s.failBuild e).pin0 = s.pin0 := rfl
@[simp] theorem State.failBuild_pin1 (s : State) (e : Err) : (s.failBuild e).pin1 = s.pin1 := rfl
@[simp] theorem State.failBuild_now (s : State) (e : Err) : (s.failBuild e).now = s.now := rfl
@[simp] theorem State.failBuild_inbox (s : State) (e : Err) : (s.failBuild e).inbox = s.inbox := rfl
@[simp] theorem State.failBuild_lastRead (s : State) (e : Err) : (s.failBuild e).lastRead = s.lastRead := rfl
@[simp] theorem State.failBuild_draws (s : State) (e : Err) : (s.failBuild e).draws = s.draws + 1 := rfl

/-! ### `State.runChecksum` -/

@[simp] theorem State.runChecksum_cmd (s : State) (r : List Byte) : (s.runChecksum r).cmd = s.cmd := rfl
@[simp] theorem State.runChecksum_status (s : State) (r : List Byte) : (s.runChecksum r).status = s.status := rfl
@[simp] theorem State.runChecksum_argLen (s : State) (r : List Byte) : (s.runChecksum r).argLen = s.argLen := rfl
@[simp] theorem State.runChecksum_argBase (s : State) (r : List Byte) : (s.runChecksum r).argBase = s.argBase := rfl
@[simp] theorem State.runChecksum_rxLen (s : State) (r : List Byte) : (s.runChecksum r).rxLen = s.rxLen := rfl
@[simp] theorem State.runChecksum_txLen (s : State) (r : List Byte) : (s.runChecksum r).txLen = s.txLen := rfl
@[simp] theorem State.runChecksum_ckOut (s : State) (r : List Byte) : (s.runChecksum r).ckOut = s.ckOut := rfl
@[simp] theorem State.runChecksum_locIdx (s : State) (r : List Byte) : (s.runChecksum r).locIdx = s.locIdx := rfl
@[simp] theorem State.runChecksum_decOut (s : State) (r : List Byte) : (s.runChecksum r).decOut = s.decOut := rfl
@[simp] theorem State.runChecksum_contact0 (s : State) (r : List Byte) : (s.runChecksum r).contact0 = s.contact0 := rfl
@[simp] theorem State.runChecksum_contact1 (s : State) (r : List Byte) : (s.runChecksum r).contact1 = s.contact1 := rfl
@[simp] theorem State.runChecksum_txBuf (s : State) (r : List Byte) : (s.runChecksum r).txBuf = s.txBuf := rfl
@[simp] theorem State.runChecksum_payloadBuf (s : State) (r : List Byte) : (s.runChecksum r).payloadBuf = s.payloadBuf := rfl
@[simp] theorem State.runChecksum_rxBuf (s : State) (r : List Byte) : (s.runChecksum r).rxBuf = s.rxBuf := rfl
@[simp] theorem State.runChecksum_ckWork (s : State) (r : List Byte) : (s.runChecksum r).ckWork = s.ckWork.writeList 0 (pack (nibbleSource r)) := rfl
@[simp] theorem State.runChecksum_wcur (s : State) (r : List Byte) : (s.runChecksum r).wcur = s.wcur := rfl
@[simp] theorem State.runChecksum_rxCap (s : State) (r : List Byte) : (s.runChecksum r).rxCap = s.rxCap := rfl
@[simp] theorem State.runChecksum_pin0 (s : State) (r : List Byte) : (s.runChecksum r).pin0 = s.pin0 := rfl
@[simp] theorem State.runChecksum_pin1 (s : State) (r : List Byte) : (s.runChecksum r).pin1 = s.pin1 := rfl
@[simp] theorem State.runChecksum_now (s : State) (r : List Byte) : (s.runChecksum r).now = s.now := rfl
@[simp] theorem State.runChecksum_inbox (s : State) (r : List Byte) : (s.runChecksum r).inbox = s.inbox := rfl
@[simp] theorem State.runChecksum_lastRead (s : State) (r : List Byte) : (s.runChecksum r).lastRead = s.lastRead := rfl
@[simp] theorem State.runChecksum_draws (s : State) (r : List Byte) : (s.runChecksum r).draws = s.draws := rfl

/-! ### `State.failLocate` -/

@[simp] theorem State.failLocate_cmd (s : State) (e : Err) : (s.failLocate e).cmd = s.cmd := rfl
@[simp] theorem State.failLocate_status (s : State) (e : Err) : (s.failLocate e).status = statusWord e false := rfl
@[simp] theorem State.failLocate_argLen (s : State) (e : Err) : (s.failLocate e).argLen = s.argLen := rfl
@[simp] theorem State.failLocate_argBase (s : State) (e : Err) : (s.failLocate e).argBase = s.argBase := rfl
@[simp] theorem State.failLocate_rxLen (s : State) (e : Err) : (s.failLocate e).rxLen = s.rxLen := rfl
@[simp] theorem State.failLocate_txLen (s : State) (e : Err) : (s.failLocate e).txLen = s.txLen := rfl
@[simp] theorem State.failLocate_ckOut (s : State) (e : Err) : (s.failLocate e).ckOut = s.ckOut := rfl
@[simp] theorem State.failLocate_locIdx (s : State) (e : Err) : (s.failLocate e).locIdx = 0xFFFF#16 := rfl
@[simp] theorem State.failLocate_decOut (s : State) (e : Err) : (s.failLocate e).decOut = s.decOut := rfl
@[simp] theorem State.failLocate_contact0 (s : State) (e : Err) : (s.failLocate e).contact0 = s.contact0 := rfl
@[simp] theorem State.failLocate_contact1 (s : State) (e : Err) : (s.failLocate e).contact1 = s.contact1 := rfl
@[simp] theorem State.failLocate_txBuf (s : State) (e : Err) : (s.failLocate e).txBuf = s.txBuf := rfl
@[simp] theorem State.failLocate_payloadBuf (s : State) (e : Err) : (s.failLocate e).payloadBuf = s.payloadBuf := rfl
@[simp] theorem State.failLocate_rxBuf (s : State) (e : Err) : (s.failLocate e).rxBuf = s.rxBuf := rfl
@[simp] theorem State.failLocate_ckWork (s : State) (e : Err) : (s.failLocate e).ckWork = s.ckWork := rfl
@[simp] theorem State.failLocate_crcAcc (s : State) (e : Err) : (s.failLocate e).crcAcc = s.crcAcc := rfl
@[simp] theorem State.failLocate_wcur (s : State) (e : Err) : (s.failLocate e).wcur = s.wcur := rfl
@[simp] theorem State.failLocate_rxCap (s : State) (e : Err) : (s.failLocate e).rxCap = s.rxCap := rfl
@[simp] theorem State.failLocate_pin0 (s : State) (e : Err) : (s.failLocate e).pin0 = s.pin0 := rfl
@[simp] theorem State.failLocate_pin1 (s : State) (e : Err) : (s.failLocate e).pin1 = s.pin1 := rfl
@[simp] theorem State.failLocate_now (s : State) (e : Err) : (s.failLocate e).now = s.now := rfl
@[simp] theorem State.failLocate_inbox (s : State) (e : Err) : (s.failLocate e).inbox = s.inbox := rfl
@[simp] theorem State.failLocate_lastRead (s : State) (e : Err) : (s.failLocate e).lastRead = s.lastRead := rfl
@[simp] theorem State.failLocate_draws (s : State) (e : Err) : (s.failLocate e).draws = s.draws := rfl

/-! ### `State.failCksum` -/

@[simp] theorem State.failCksum_cmd (s : State) (e : Err) : (s.failCksum e).cmd = s.cmd := rfl
@[simp] theorem State.failCksum_status (s : State) (e : Err) : (s.failCksum e).status = statusWord e false := rfl
@[simp] theorem State.failCksum_argLen (s : State) (e : Err) : (s.failCksum e).argLen = s.argLen := rfl
@[simp] theorem State.failCksum_argBase (s : State) (e : Err) : (s.failCksum e).argBase = s.argBase := rfl
@[simp] theorem State.failCksum_rxLen (s : State) (e : Err) : (s.failCksum e).rxLen = s.rxLen := rfl
@[simp] theorem State.failCksum_txLen (s : State) (e : Err) : (s.failCksum e).txLen = s.txLen := rfl
@[simp] theorem State.failCksum_ckOut (s : State) (e : Err) : (s.failCksum e).ckOut = 0x00#8 := rfl
@[simp] theorem State.failCksum_locIdx (s : State) (e : Err) : (s.failCksum e).locIdx = s.locIdx := rfl
@[simp] theorem State.failCksum_decOut (s : State) (e : Err) : (s.failCksum e).decOut = s.decOut := rfl
@[simp] theorem State.failCksum_contact0 (s : State) (e : Err) : (s.failCksum e).contact0 = s.contact0 := rfl
@[simp] theorem State.failCksum_contact1 (s : State) (e : Err) : (s.failCksum e).contact1 = s.contact1 := rfl
@[simp] theorem State.failCksum_txBuf (s : State) (e : Err) : (s.failCksum e).txBuf = s.txBuf := rfl
@[simp] theorem State.failCksum_payloadBuf (s : State) (e : Err) : (s.failCksum e).payloadBuf = s.payloadBuf := rfl
@[simp] theorem State.failCksum_rxBuf (s : State) (e : Err) : (s.failCksum e).rxBuf = s.rxBuf := rfl
@[simp] theorem State.failCksum_ckWork (s : State) (e : Err) : (s.failCksum e).ckWork = s.ckWork := rfl
@[simp] theorem State.failCksum_crcAcc (s : State) (e : Err) : (s.failCksum e).crcAcc = s.crcAcc := rfl
@[simp] theorem State.failCksum_wcur (s : State) (e : Err) : (s.failCksum e).wcur = s.wcur := rfl
@[simp] theorem State.failCksum_rxCap (s : State) (e : Err) : (s.failCksum e).rxCap = s.rxCap := rfl
@[simp] theorem State.failCksum_pin0 (s : State) (e : Err) : (s.failCksum e).pin0 = s.pin0 := rfl
@[simp] theorem State.failCksum_pin1 (s : State) (e : Err) : (s.failCksum e).pin1 = s.pin1 := rfl
@[simp] theorem State.failCksum_now (s : State) (e : Err) : (s.failCksum e).now = s.now := rfl
@[simp] theorem State.failCksum_inbox (s : State) (e : Err) : (s.failCksum e).inbox = s.inbox := rfl
@[simp] theorem State.failCksum_lastRead (s : State) (e : Err) : (s.failCksum e).lastRead = s.lastRead := rfl
@[simp] theorem State.failCksum_draws (s : State) (e : Err) : (s.failCksum e).draws = s.draws := rfl

/-! ### Contacts and pins -/

@[simp] theorem State.contact_c0 (s : State) : s.contact .c0 = s.contact0 := rfl
@[simp] theorem State.contact_c1 (s : State) : s.contact .c1 = s.contact1 := rfl
@[simp] theorem State.pin_c0 (s : State) : s.pin .c0 = s.pin0 := rfl
@[simp] theorem State.pin_c1 (s : State) : s.pin .c1 = s.pin1 := rfl

@[simp] theorem State.setContact_contact (s : State) (c : Contact) (k : ContactState) : (s.setContact c k).contact c = k := by
  cases c <;> rfl

theorem State.setContact_contact_of_ne (s : State) (c d : Contact) (k : ContactState) (h : d ≠ c) :
    (s.setContact c k).contact d = s.contact d := by
  cases c <;> cases d <;> first | rfl | exact absurd rfl h

@[simp] theorem State.setContact_cmd (s : State) (c : Contact) (k : ContactState) : (s.setContact c k).cmd = s.cmd := by
  cases c <;> rfl
@[simp] theorem State.setContact_status (s : State) (c : Contact) (k : ContactState) : (s.setContact c k).status = s.status := by
  cases c <;> rfl
@[simp] theorem State.setContact_argLen (s : State) (c : Contact) (k : ContactState) : (s.setContact c k).argLen = s.argLen := by
  cases c <;> rfl
@[simp] theorem State.setContact_argBase (s : State) (c : Contact) (k : ContactState) : (s.setContact c k).argBase = s.argBase := by
  cases c <;> rfl
@[simp] theorem State.setContact_rxLen (s : State) (c : Contact) (k : ContactState) : (s.setContact c k).rxLen = s.rxLen := by
  cases c <;> rfl
@[simp] theorem State.setContact_txLen (s : State) (c : Contact) (k : ContactState) : (s.setContact c k).txLen = s.txLen := by
  cases c <;> rfl
@[simp] theorem State.setContact_ckOut (s : State) (c : Contact) (k : ContactState) : (s.setContact c k).ckOut = s.ckOut := by
  cases c <;> rfl
@[simp] theorem State.setContact_locIdx (s : State) (c : Contact) (k : ContactState) : (s.setContact c k).locIdx = s.locIdx := by
  cases c <;> rfl
@[simp] theorem State.setContact_decOut (s : State) (c : Contact) (k : ContactState) : (s.setContact c k).decOut = s.decOut := by
  cases c <;> rfl
@[simp] theorem State.setContact_txBuf (s : State) (c : Contact) (k : ContactState) : (s.setContact c k).txBuf = s.txBuf := by
  cases c <;> rfl
@[simp] theorem State.setContact_payloadBuf (s : State) (c : Contact) (k : ContactState) : (s.setContact c k).payloadBuf = s.payloadBuf := by
  cases c <;> rfl
@[simp] theorem State.setContact_rxBuf (s : State) (c : Contact) (k : ContactState) : (s.setContact c k).rxBuf = s.rxBuf := by
  cases c <;> rfl
@[simp] theorem State.setContact_ckWork (s : State) (c : Contact) (k : ContactState) : (s.setContact c k).ckWork = s.ckWork := by
  cases c <;> rfl
@[simp] theorem State.setContact_crcAcc (s : State) (c : Contact) (k : ContactState) : (s.setContact c k).crcAcc = s.crcAcc := by
  cases c <;> rfl
@[simp] theorem State.setContact_wcur (s : State) (c : Contact) (k : ContactState) : (s.setContact c k).wcur = s.wcur := by
  cases c <;> rfl
@[simp] theorem State.setContact_rxCap (s : State) (c : Contact) (k : ContactState) : (s.setContact c k).rxCap = s.rxCap := by
  cases c <;> rfl
@[simp] theorem State.setContact_pin0 (s : State) (c : Contact) (k : ContactState) : (s.setContact c k).pin0 = s.pin0 := by
  cases c <;> rfl
@[simp] theorem State.setContact_pin1 (s : State) (c : Contact) (k : ContactState) : (s.setContact c k).pin1 = s.pin1 := by
  cases c <;> rfl
@[simp] theorem State.setContact_now (s : State) (c : Contact) (k : ContactState) : (s.setContact c k).now = s.now := by
  cases c <;> rfl
@[simp] theorem State.setContact_inbox (s : State) (c : Contact) (k : ContactState) : (s.setContact c k).inbox = s.inbox := by
  cases c <;> rfl
@[simp] theorem State.setContact_lastRead (s : State) (c : Contact) (k : ContactState) : (s.setContact c k).lastRead = s.lastRead := by
  cases c <;> rfl
@[simp] theorem State.setContact_draws (s : State) (c : Contact) (k : ContactState) : (s.setContact c k).draws = s.draws := by
  cases c <;> rfl

/-! ### Flags -/

@[simp] theorem errOf_statusWord (e : Err) (b : Bool) : errOf (statusWord e b) = e.code := by
  cases e <;> cases b <;> decide

@[simp] theorem pollTakenOf_statusWord (e : Err) (b : Bool) : pollTakenOf (statusWord e b) = b := by
  cases e <;> cases b <;> decide

@[simp] theorem statusReserved_statusWord (e : Err) (b : Bool) : statusReserved (statusWord e b) = 0#11 := by
  cases e <;> cases b <;> decide

theorem Err.code_le (e : Err) : e.code.toNat ≤ 8 := by
  cases e <;> decide

theorem Err.code_injective (e f : Err) (h : e.code = f.code) : e = f := by
  revert h; cases e <;> cases f <;> decide

end Sys2Proof.Machine
end

