-- ==== Sys2Proof/Laws/Checksum.lean ====
section
/-! SUPPORT. What the checksum's functions and its micro-sequence do. -/

namespace Sys2Proof.Machine

@[simp] theorem pack_nil : pack [] = [] := rfl
@[simp] theorem pack_singleton (a : Byte) : pack [a] = [] := rfl
@[simp] theorem pack_cons_cons (a b : Byte) (rest : List Byte) : pack (a :: b :: rest) = join a b :: pack rest := rfl

/-- m = n div 2 (spec/40_checksum.md R82). -/
theorem length_pack (src : List Byte) : (pack src).length = src.length / 2 := by
  induction src using pack.induct with
  | case1 a b rest ih => simp [ih]; omega
  | case2 a => simp
  | case3 => simp

@[simp] theorem length_nibbleSource (r : List Byte) : (nibbleSource r).length = r.length - 4 := by
  simp [nibbleSource]; omega

@[simp] theorem crc8_nil : crc8 [] = 0x00#8 := rfl

/-- The micro-sequence computes the CRC-8 of the reconstructed bytes, whatever CK_WORK and CRC_ACC held before. -/
@[simp] theorem State.runChecksum_crcAcc (s : State) (r : List Byte) :
    (s.runChecksum r).crcAcc = crc8 (pack (nibbleSource r)) := by
  simp only [State.runChecksum, crc8]
  generalize pack (nibbleSource r) = q
  have h : (List.range q.length).map (fun i => (s.ckWork.writeList 0 q).read i) = q := by
    apply List.ext_getElem
    · simp
    · intro i h1 h2
      simp [Memory.read_writeList, h2]
  conv_rhs => rw [← h]
  rw [List.foldl_map]

/-- The nibble-source bytes of the region B[b .. b+L-1] are B[b+3 .. b+L-2] (spec/40_checksum.md R81). -/
theorem nibbleSource_region (m : Memory) (b L : Nat) :
    nibbleSource (m.region b L) = (List.range (L - 4)).map fun k => m.read (b + 3 + k) := by
  apply List.ext_getElem
  · simp
  · intro i h1 h2
    simp [nibbleSource, Memory.region, Nat.add_assoc]

/-- CKSUM's checks pass exactly on a region that lies within the valid length and covers at most 128 bytes. -/
theorem State.cksumCheck_eq_none_iff (s : State) (rx : Bool) :
    s.cksumCheck rx = none ↔ (rx = true → s.rxLen.toNat ≤ s.rxCap.toNat) ∧ 4 ≤ s.argLen.toNat ∧
      s.argBase.toNat + s.argLen.toNat ≤ s.cksumLimit rx ∧ s.argLen.toNat ≤ 132 := by
  have h := ckSrcMax_eq
  unfold State.cksumCheck
  split
  · next h1 => simp only [reduceCtorEq, false_iff]; intro h2; have := h2.1 h1.1; omega
  · next h1 =>
    have h1' : rx = true → s.rxLen.toNat ≤ s.rxCap.toNat := fun hr => by
      by_contra hc; exact h1 ⟨hr, by omega⟩
    split
    · simp only [reduceCtorEq, false_iff]; omega
    · split
      · simp only [reduceCtorEq, false_iff]; omega
      · split
        · simp only [reduceCtorEq, false_iff]; omega
        · simp only [true_iff]; exact ⟨h1', by omega, by omega, by omega⟩

end Sys2Proof.Machine
end

