-- ==== Sys2Proof/Laws/Debouncer.lean ====
section
/-! SUPPORT. What the debouncer's functions do. -/

namespace Sys2Proof.Machine

@[simp] theorem ContactState.takePoll_last (k : ContactState) (p : Level) (t : Time) : (k.takePoll p t).last = t := rfl
@[simp] theorem ContactState.takePoll_init (k : ContactState) (p : Level) (t : Time) : (k.takePoll p t).init = k.init := rfl
@[simp] theorem ContactState.takePoll_hist (k : ContactState) (p : Level) (t : Time) :
    (k.takePoll p t).hist = (compareHistory (shiftIn k.hist p) k.latch).1 := rfl
@[simp] theorem ContactState.takePoll_latch (k : ContactState) (p : Level) (t : Time) :
    (k.takePoll p t).latch = (compareHistory (shiftIn k.hist p) k.latch).2 := rfl

@[simp] theorem seedContact_last (p : Level) (t : Time) : (seedContact p t).last = t := by
  unfold seedContact; split <;> rfl
@[simp] theorem seedContact_init (p : Level) (t : Time) : (seedContact p t).init = true := by
  unfold seedContact; split <;> rfl

theorem level_eq_zero_or_one (p : Level) : p = 0#1 ∨ p = 1#1 := by
  revert p; decide

/-- A pressed sample enters the history as a 1 (spec/43_debouncer.md R144). -/
@[simp] theorem shiftIn_low (h : Byte) : shiftIn h 0#1 = (h <<< 1) ||| 1#8 := rfl

/-- An open sample enters the history as a 0 (spec/43_debouncer.md R144). -/
@[simp] theorem shiftIn_high (h : Byte) : shiftIn h 1#1 = h <<< 1 := by
  have : (~~~1#1 : BitVec 1).setWidth 8 = 0#8 := by decide
  rw [shiftIn, this, BitVec.or_zero]

@[simp] theorem ContactState.heldPolls_nil (k : ContactState) (p : Level) : k.heldPolls p [] = k := rfl
@[simp] theorem ContactState.heldPolls_cons (k : ContactState) (p : Level) (t : Time) (ts : List Time) :
    k.heldPolls p (t :: ts) = (k.takePoll p t).heldPolls p ts := rfl

/-- The times of a run of polls reach neither the history nor the latch. -/
theorem ContactState.heldPolls_times (p : Level) (ts ts' : List Time) (h : ts.length = ts'.length)
    (k k' : ContactState) (hh : k.hist = k'.hist) (hl : k.latch = k'.latch) :
    (k.heldPolls p ts).hist = (k'.heldPolls p ts').hist ∧ (k.heldPolls p ts).latch = (k'.heldPolls p ts').latch := by
  induction ts generalizing ts' k k' with
  | nil => cases ts' with
    | nil => exact ⟨hh, hl⟩
    | cons _ _ => simp at h
  | cons t ts ih => cases ts' with
    | nil => simp at h
    | cons t' ts' => exact ih ts' (by simpa using h) _ _ (by simp [hh, hl]) (by simp [hh, hl])

/-- No history that a poll leaves holds a pattern that the comparator still acts on. -/
theorem compareHistory_settled (h : Byte) (latch : Latch) :
    (compareHistory h latch).1 &&& Config.debMask ≠ Config.closePat ∧
      (compareHistory h latch).1 &&& Config.debMask ≠ Config.openPat := by
  unfold compareHistory
  split
  · simp only; decide
  · split
    · simp only; decide
    · next h1 h2 => exact ⟨h1, h2⟩

theorem gateOpen_iff (last t : Time) : gateOpen last t = true ↔ 10 ≤ (t - last).toNat := by
  rw [gateOpen, decide_eq_true_iff]; rfl

end Sys2Proof.Machine
end

