-- ==== Sys2Proof/Laws/Decoder.lean ====
section
/-! SUPPORT. What the message locator and the field decoder do. -/

namespace Sys2Proof.Machine

theorem locate_eq_none_iff (m : Memory) (n : Nat) : locate m n = none ↔ ∀ i < n, m.read i ≠ 0xF0#8 := by
  simp [locate]

theorem locate_eq_some_iff (m : Memory) (n i : Nat) :
    locate m n = some i ↔ i < n ∧ m.read i = 0xF0#8 ∧ ∀ j < i, m.read j ≠ 0xF0#8 := by
  rw [locate, List.find?_range_eq_some]
  simp
  tauto

/-- Everything decode_field(k) can do (spec/42_decoder.md R123): ERR_ILLEGAL writes STATUS only, another error writes STATUS
and DEC_OUT = 0xFF, and a success writes DEC_OUT and STATUS. -/
theorem State.decodeField_cases (s : State) (imm : Byte) (k : Nat) :
    s.decodeField imm k = s.raise .illegal ∨ (∃ e, s.decodeField imm k = s.failDecode e) ∨
      ∃ b, s.decodeField imm k = State.complete { s with decOut := b } false := by
  unfold State.decodeField
  split
  · exact .inl rfl
  · split
    · exact .inr (.inl ⟨_, rfl⟩)
    · split
      · exact .inr (.inl ⟨_, rfl⟩)
      · split
        · exact .inr (.inl ⟨_, rfl⟩)
        · exact .inr (.inr ⟨_, rfl⟩)

end Sys2Proof.Machine
end

