-- ==== Sys2Proof/Laws/Encoder.lean ====
section
/-! SUPPORT. What building a frame does. -/

namespace Sys2Proof.Machine

/-- Emitting bytes writes them in succession from WCUR on, and moves WCUR past them. -/
theorem State.emitAll_eq (s : State) (vs : List Byte) :
    s.emitAll vs = { s with txBuf := s.txBuf.writeList s.wcur vs, wcur := s.wcur + vs.length } := by
  induction vs generalizing s with
  | nil => rfl
  | cons v rest ih =>
    have := ih (s.emit v)
    simp only [State.emitAll, List.foldl_cons] at this ⊢
    rw [this]
    simp [Memory.writeList, State.emit, Nat.add_comm 1, Nat.add_assoc]

@[simp] theorem length_frame (type : Byte) (payload : List Byte) : (frame type payload).length = 14 + payload.length := by
  simp [frame]; omega

/-- The bytes of the frame before its checksum field is written. -/
theorem State.emitFrame_eq (s : State) (type : Byte) (payload : List Byte) :
    s.emitFrame type payload = { s with
      txBuf := Memory.zeroed.writeList 0 (headerBytes (BitVec.ofNat 8 payload.length) type ++ payload ++ [terminator])
      wcur := 14 + payload.length } := by
  rw [State.emitFrame, State.emitAll_eq]
  simp [headerBytes]; omega

/-- The region BUILD gives to the checksum is the emitted frame from its 0xF0 on, and its nibble-source bytes are the
vendor identifier, the length field, the class byte, the type byte and the payload. -/
theorem nibbleSource_emitted (s : State) (type : Byte) (payload : List Byte) :
    nibbleSource ((s.emitFrame type payload).txBuf.region 2 (12 + payload.length)) =
      [0x00#8, 0x01#8, 0x00#8, 0x00#8, (split (BitVec.ofNat 8 payload.length)).1,
        (split (BitVec.ofNat 8 payload.length)).2, 0x01#8, type] ++ payload := by
  rw [State.emitFrame_eq]
  simp only
  have hr := Memory.region_eq_drop
    (Memory.zeroed.writeList 0 (headerBytes (BitVec.ofNat 8 payload.length) type ++ payload ++ [terminator]))
    (headerBytes (BitVec.ofNat 8 payload.length) type ++ payload ++ [terminator]) 2
    (fun i hi => by rw [Memory.read_writeList, if_pos (by omega)]; simp)
  have hl : (headerBytes (BitVec.ofNat 8 payload.length) type ++ payload ++ [terminator]).length - 2 =
      12 + payload.length := by
    simp [headerBytes]; omega
  rw [hl] at hr
  rw [hr, nibbleSource]
  simp [headerBytes]

/-- Every byte of TX_BUF after a frame is built: the frame, then zeros (spec/41_encoder.md R104). -/
theorem State.read_buildFrame (s : State) (type : Byte) (payload : List Byte) (i : Nat) :
    (s.buildFrame type payload).txBuf.read i = (frame type payload).getD i 0x00#8 := by
  have hcrc : crc8 (pack (nibbleSource ((s.emitFrame type payload).txBuf.region 2 (12 + payload.length)))) =
      frameCrc type payload := by
    rw [nibbleSource_emitted]; rfl
  simp only [State.buildFrame, State.complete_txBuf, State.forgetHidden_txBuf, State.writeCrcField_txBuf,
    State.runChecksum_txBuf, State.runChecksum_crcAcc, hcrc, Memory.read_write]
  by_cases h4 : i = 4
  · subst h4; simp [frame]
  · by_cases h3 : i = 3
    · subst h3; simp [frame]
    · rw [if_neg h4, if_neg h3, State.emitFrame_eq]
      simp only [Memory.read_writeList, Nat.zero_le, true_and, Nat.zero_add, Nat.sub_zero, Memory.read_zeroed]
      have hlist : ∀ j, j ≠ 3 → j ≠ 4 →
          (headerBytes (BitVec.ofNat 8 payload.length) type ++ payload ++ [terminator]).getD j 0x00#8 =
            (frame type payload).getD j 0x00#8 := by
        intro j h3 h4
        simp only [headerBytes, frame, terminator, List.cons_append]
        match j, h3, h4 with
        | 0, _, _ => rfl
        | 1, _, _ => rfl
        | 2, _, _ => rfl
        | n + 5, _, _ => rfl
      split
      · exact hlist i h3 h4
      · next h =>
        rw [List.getD_eq_default]
        rw [length_frame]
        simp [headerBytes] at h
        omega

@[simp] theorem State.buildFrame_status (s : State) (type : Byte) (payload : List Byte) :
    (s.buildFrame type payload).status = statusWord .ok false := rfl
@[simp] theorem State.buildFrame_txLen (s : State) (type : Byte) (payload : List Byte) :
    (s.buildFrame type payload).txLen = BitVec.ofNat 16 (14 + payload.length) := rfl
@[simp] theorem State.buildFrame_draws (s : State) (type : Byte) (payload : List Byte) :
    (s.buildFrame type payload).draws = s.draws + 1 := by
  simp [State.buildFrame, State.emitFrame_eq]

/-- Building a frame changes TX_BUF, TX_LEN, STATUS and the hidden state, and nothing else (spec/41_encoder.md R104). -/
theorem State.buildFrame_frame (s : State) (type : Byte) (payload : List Byte) :
    s.buildFrame type payload = { s with
      txBuf := (s.buildFrame type payload).txBuf
      txLen := BitVec.ofNat 16 (14 + payload.length)
      status := statusWord .ok false
      ckWork := Memory.unspecified s.draws
      crcAcc := Config.freeCrcAcc s.draws
      wcur := Config.freeWcur s.draws
      draws := s.draws + 1 } := by
  simp only [State.buildFrame, State.emitFrame_eq]
  rfl

/-- A built frame leaves TX_BUF in canonical form when the frame fits. -/
theorem State.wf_buildFrame (s : State) (type : Byte) (payload : List Byte) (h : 14 + payload.length ≤ Config.txCap) :
    (s.buildFrame type payload).txBuf.wf Config.txCap := by
  simp only [State.buildFrame, State.complete_txBuf, State.forgetHidden_txBuf, State.writeCrcField_txBuf,
    State.runChecksum_txBuf, State.emitFrame_eq]
  have h14 := txCap_eq
  refine Memory.wf_write _ _ _ _ (Memory.wf_write _ _ _ _ (Memory.wf_writeList _ _ _ _ (Memory.wf_zeroed _) ?_) ?_) ?_
  · simp [headerBytes]; omega
  · omega
  · omega

/-- BUILD's checks pass exactly up to 120 payload bytes. -/
theorem buildCheck_eq_none_iff (len : Nat) : buildCheck len = none ↔ len ≤ 120 := by
  have h1 := txCap_eq
  have h2 := lenMax_eq
  have h3 := ckSrcMax_eq
  unfold buildCheck
  split
  · simp; omega
  · split
    · simp; omega
    · split <;> simp <;> omega

end Sys2Proof.Machine
end

