-- ==== Sys2Proof/Laws/PerInstr.lean ====
section
/-! SUPPORT. The family EncodedFields: the fields of every command's word. -/

namespace Sys2Proof

@[simp] theorem opcOf_append (opc imm : Byte) : opcOf (opc ++ imm) = opc := by
  apply BitVec.eq_of_getLsbD_eq
  intro i hi
  have h : (opc ++ imm).getLsbD (8 + i) = _ := BitVec.getLsbD_append
  simp only [opcOf, BitVec.getLsbD_extractLsb', hi, decide_true, Bool.true_and]
  exact h.trans (by simp)

@[simp] theorem immOf_append (opc imm : Byte) : immOf (opc ++ imm) = imm := by
  apply BitVec.eq_of_getLsbD_eq
  intro i hi
  have h : (opc ++ imm).getLsbD i = _ := BitVec.getLsbD_append
  simp only [immOf, BitVec.getLsbD_extractLsb', hi, decide_true, Bool.true_and, Nat.zero_add]
  exact h.trans (by simp [hi])

/-- A word is its OPC above its IMM (spec/30_encoding.md R61). -/
theorem opcOf_append_immOf (w : Half) : (opcOf w ++ immOf w : BitVec 16) = w := by
  apply BitVec.eq_of_getLsbD_eq
  intro i hi
  rw [BitVec.getLsbD_append]
  by_cases h : i < 8
  · simp [h, immOf]
  · simp [h, opcOf, show i - 8 < 8 by omega, show 8 + (i - 8) = i by omega]

namespace Laws.EncodedFields

/-- The word of a command has the command's OPC and IMM. -/
def Statement (i : Instr) : Prop := opcOf (encode i) = i.opc ∧ immOf (encode i) = i.imm

theorem fields (i : Instr) : Statement i := ⟨opcOf_append _ _, immOf_append _ _⟩

theorem build (m : Byte) : Statement (.build m) := fields _
theorem presetreq (m : Byte) : Statement (.presetreq m) := fields _
theorem cksum (m : Byte) : Statement (.cksum m) := fields _
theorem locate (m : Byte) : Statement (.locate m) := fields _
theorem decop (m : Byte) : Statement (.decop m) := fields _
theorem decpre (m : Byte) : Statement (.decpre m) := fields _
theorem declen (m : Byte) : Statement (.declen m) := fields _
theorem swinit (m : Byte) : Statement (.swinit m) := fields _
theorem swpoll (m : Byte) : Statement (.swpoll m) := fields _

end Laws.EncodedFields

end Sys2Proof
end

