-- ==== Sys2Proof/Laws/Step.lean ====
section
/-! SUPPORT. Everything one command, one event and one step can do. -/

namespace Sys2Proof.Machine

/-- The next states of CKSUM. -/
theorem execCksum_cases (imm : Byte) (s t : State) (h : execCksum imm s = .next t) :
    t = s.raise .illegal ∨ (∃ e, t = s.failCksum e) ∨
      (s.cksumCheck (selectsRx imm) = none ∧ t = s.cksumRegion (selectsRx imm)) := by
  unfold execCksum at h
  split at h
  · exact .inl (by simpa using h.symm)
  · split at h
    · exact .inr (.inl ⟨_, by simpa using h.symm⟩)
    · next hc =>
      split at h
      · simp at h
      · exact .inr (.inr ⟨hc, by simpa using h.symm⟩)

/-- The next state of BUILD. -/
theorem execBuild_cases (imm : Byte) (s : State) :
    (∃ e, buildCheck s.argLen.toNat = some e ∧ execBuild imm s = .next (s.failBuild e)) ∨
      (s.argLen.toNat ≤ 120 ∧
        execBuild imm s = .next (s.buildFrame imm (s.payloadBuf.region 0 s.argLen.toNat))) := by
  unfold execBuild
  cases h : buildCheck s.argLen.toNat with
  | some e => exact .inl ⟨e, rfl, rfl⟩
  | none => exact .inr ⟨(buildCheck_eq_none_iff _).mp h, rfl⟩

/-- The next state of PRESETREQ. -/
theorem execPresetreq_cases (imm : Byte) (s : State) :
    execPresetreq imm s = .next (s.raise .illegal) ∨
      execPresetreq imm s = .next (s.buildFrame 0x02#8 [0x04#8, 0x03#8]) := by
  unfold execPresetreq
  split
  · exact .inl rfl
  · exact .inr rfl

/-- The next state of LOCATE. -/
theorem execLocate_cases (imm : Byte) (s : State) :
    execLocate imm s = .next (s.raise .illegal) ∨ (∃ e, execLocate imm s = .next (s.failLocate e)) ∨
      ∃ i, locate s.rxBuf s.rxLen.toNat = some i ∧
        execLocate imm s = .next (State.complete { s with locIdx := BitVec.ofNat 16 i } false) := by
  unfold execLocate
  split
  · exact .inl rfl
  · split
    · exact .inr (.inl ⟨_, rfl⟩)
    · split
      · exact .inr (.inl ⟨_, rfl⟩)
      · next hi => exact .inr (.inr ⟨_, hi, rfl⟩)

/-- The next state of SWINIT. -/
theorem execSwinit_cases (imm : Byte) (s : State) :
    execSwinit imm s = .next (s.raise .illegal) ∨
      execSwinit imm s =
        .next ((s.setContact (contactOf imm) (seedContact (s.pin (contactOf imm)) s.now)).complete false) := by
  unfold execSwinit
  split
  · exact .inl rfl
  · exact .inr rfl

/-- The next state of SWPOLL. -/
theorem execSwpoll_cases (imm : Byte) (s : State) :
    (∃ e, execSwpoll imm s = .next (s.raise e)) ∨ execSwpoll imm s = .next (s.complete false) ∨
      ((s.contact (contactOf imm)).init = true ∧ gateOpen (s.contact (contactOf imm)).last s.now = true ∧
        execSwpoll imm s = .next ((s.setContact (contactOf imm)
          ((s.contact (contactOf imm)).takePoll (s.pin (contactOf imm)) s.now)).complete true)) := by
  unfold execSwpoll
  simp only
  split
  · exact .inl ⟨_, rfl⟩
  · split
    · exact .inl ⟨_, rfl⟩
    · next hi =>
      split
      · exact .inr (.inl rfl)
      · next hg => exact .inr (.inr ⟨by simpa using hi, by simpa using hg, rfl⟩)

/-- Every next state a command can answer: the errors it may raise, and its success. -/
theorem exec_cases (i : Instr) (s t : State) (h : exec i s = .next t) :
    (∃ imm, i = .build imm ∧
      ((∃ e, buildCheck s.argLen.toNat = some e ∧ t = s.failBuild e) ∨
        (s.argLen.toNat ≤ 120 ∧ t = s.buildFrame imm (s.payloadBuf.region 0 s.argLen.toNat)))) ∨
    (∃ imm, i = .presetreq imm ∧
      (t = s.raise .illegal ∨ t = s.buildFrame 0x02#8 [0x04#8, 0x03#8])) ∨
    (∃ imm, i = .cksum imm ∧
      (t = s.raise .illegal ∨ (∃ e, t = s.failCksum e) ∨
        (s.cksumCheck (selectsRx imm) = none ∧ t = s.cksumRegion (selectsRx imm)))) ∨
    (∃ imm, i = .locate imm ∧
      (t = s.raise .illegal ∨ (∃ e, t = s.failLocate e) ∨
        ∃ k, t = State.complete { s with locIdx := BitVec.ofNat 16 k } false)) ∨
    (∃ imm, (i = .decop imm ∨ i = .decpre imm ∨ i = .declen imm) ∧
      (t = s.raise .illegal ∨ (∃ e, t = s.failDecode e) ∨
        ∃ b, t = State.complete { s with decOut := b } false)) ∨
    (∃ imm, i = .swinit imm ∧
      (t = s.raise .illegal ∨
        t = (s.setContact (contactOf imm) (seedContact (s.pin (contactOf imm)) s.now)).complete false)) ∨
    (∃ imm, i = .swpoll imm ∧
      ((∃ e, t = s.raise e) ∨ t = s.complete false ∨
        ((s.contact (contactOf imm)).init = true ∧ gateOpen (s.contact (contactOf imm)).last s.now = true ∧
          t = (s.setContact (contactOf imm)
            ((s.contact (contactOf imm)).takePoll (s.pin (contactOf imm)) s.now)).complete true))) := by
  cases i with
  | build imm =>
    refine .inl ⟨imm, rfl, ?_⟩
    rcases execBuild_cases imm s with ⟨e,h1,h2⟩|⟨h1,h2⟩ <;> simp only [exec, h2] at h <;> injection h with h
    · exact .inl ⟨e,h1,h.symm⟩
    · exact .inr ⟨h1,h.symm⟩
  | presetreq imm =>
    refine .inr (.inl ⟨imm, rfl, ?_⟩)
    rcases execPresetreq_cases imm s with h2|h2 <;> simp only [exec, h2] at h <;> injection h with h
    · exact .inl h.symm
    · exact .inr h.symm
  | cksum imm => exact .inr (.inr (.inl ⟨imm, rfl, execCksum_cases imm s t h⟩))
  | locate imm =>
    refine .inr (.inr (.inr (.inl ⟨imm, rfl, ?_⟩)))
    rcases execLocate_cases imm s with h2|⟨e,h2⟩|⟨k,_,h2⟩ <;> simp only [exec, h2] at h <;> injection h with h
    · exact .inl h.symm
    · exact .inr (.inl ⟨e, h.symm⟩)
    · exact .inr (.inr ⟨k, h.symm⟩)
  | decop imm | decpre imm | declen imm =>
    refine .inr (.inr (.inr (.inr (.inl ⟨imm, by simp, ?_⟩))))
    simp only [exec, execDecop, execDecpre, execDeclen] at h; injection h with h
    rw [← h]; exact State.decodeField_cases ..
  | swinit imm =>
    refine .inr (.inr (.inr (.inr (.inr (.inl ⟨imm, rfl, ?_⟩)))))
    rcases execSwinit_cases imm s with h2|h2 <;> simp only [exec, h2] at h <;> injection h with h
    · exact .inl h.symm
    · exact .inr h.symm
  | swpoll imm =>
    refine .inr (.inr (.inr (.inr (.inr (.inr ⟨imm, rfl, ?_⟩)))))
    rcases execSwpoll_cases imm s with ⟨e,h2⟩|h2|⟨h3,h4,h2⟩ <;> simp only [exec, h2] at h <;> injection h with h
    · exact .inl ⟨e,h.symm⟩
    · exact .inr (.inl h.symm)
    · exact .inr (.inr ⟨h3,h4,h.symm⟩)

/-- A host write of a register other than CMD is a next state. -/
theorem State.writeReg_cases (s : State) (r : Reg) (v : Nat) (h : r ≠ .cmd) :
    s.writeReg r v = .next s ∨ s.writeReg r v = .next { s with argLen := BitVec.ofNat 16 v } ∨
      s.writeReg r v = .next { s with argBase := BitVec.ofNat 16 v } ∨
      s.writeReg r v = .next { s with rxLen := BitVec.ofNat 16 v } := by
  cases r <;> first | exact absurd rfl h | simp [State.writeReg]

/-- A step takes the first pending event. -/
theorem step_of_cons (s : State) (e : Event) (rest : List Event) (h : s.inbox = e :: rest) :
    step s = State.handle { s with inbox := rest } e := by
  rw [step, h]

@[simp] theorem State.withFetchWord_inbox (s : State) (nbits w : Nat) :
    (s.withFetchWord nbits w).inbox = .host (.writeReg 0x0 (w % 2 ^ nbits)) :: s.inbox := rfl

end Sys2Proof.Machine
end

