-- ==== Sys2Proof/Tests/Slice0.lean ====
section
/-! SUPPORT. Small tests, and a witness for the hypotheses of every statement.

Expected results come from spec/95_test_vectors.md (V, P and S numbers) and the rules' own examples. A test runs one command or
one step on a small state. -/

namespace Sys2Proof.Tests

open Sys2Proof.Machine

/-! ### Helpers -/

/-- Reset, with RX_CAP = 256 as the spec's vectors assume, both pins open and NOW = 1000. -/
def base : State := { State.reset with rxCap := 256#16, pin0 := 1#1, pin1 := 1#1, now := 1000#32 }

/-- A buffer that begins with the given bytes. -/
def bytes (l : List Byte) : Memory := (Memory.unspecified 0).writeList 0 l

/-- The next state of an outcome, or `base` if it is none. -/
def nextOf : Host.Outcome State Fault Refusal → State
  | .next t => t
  | .fault _ => base
  | .refused _ => base

/-- The outcome is a next state. -/
def isNext : Host.Outcome State Fault Refusal → Bool
  | .next _ => true
  | .fault _ => false
  | .refused _ => false

/-- The refusal of an outcome, if it is one. -/
def refusalOf : Host.Outcome State Fault Refusal → Option Refusal
  | .next _ => none
  | .fault _ => none
  | .refused r => some r

/-- The preset-request frame (S9). -/
def presetFrame : List Byte :=
  [0x80#8, 0x80#8, 0xF0#8, 0x00#8, 0x07#8, 0x00#8, 0x01#8, 0x00#8, 0x00#8, 0x00#8, 0x02#8, 0x01#8, 0x02#8, 0x04#8, 0x03#8, 0xF7#8]

/-- The synthetic response R of V8. -/
def response : List Byte :=
  [0x80#8, 0x80#8, 0xF0#8, 0x00#8, 0x00#8, 0x00#8, 0x01#8, 0x00#8, 0x00#8, 0x00#8, 0x02#8, 0x01#8, 0x00#8, 0x00#8, 0x05#8, 0x02#8,
    0x03#8, 0xF7#8]

/-- The state right after a PRESETREQ: the frame in TX_BUF and TX_LEN = 16 (V4). -/
def afterPreset : State := { base with txBuf := Memory.zeroed.writeList 0 presetFrame, txLen := 16#16 }

/-- RX_BUF holding the response R with a given RX_LEN. -/
def rxResponse (n : Nat) : State := { base with rxBuf := bytes response, rxLen := BitVec.ofNat 16 n }

/-- Contact 0 seeded, with a history, a latch and a last poll. -/
def seeded (hist : Byte) (latch : Latch) (last : Time) (pin : Level) (now : Time) : State :=
  { base with contact0 := ⟨hist, latch, last, true⟩, pin0 := pin, now := now }

/-- A host CMD write of the word `w` pending. -/
def withCmd (s : State) (w : Nat) : State := { s with inbox := [.host (.writeReg 0x0 w)] }

/-! ### Command words (R62 to R64, V14) -/

theorem test_decode_build : decode 0b0000000111111111#16 = .ok (.build 0xFF#8) := by decide
theorem test_decode_presetreq : decode 0b0000001000000000#16 = .ok (.presetreq 0x00#8) := by decide
theorem test_decode_cksum_tx : decode 0b0000001100000000#16 = .ok (.cksum 0x00#8) := by decide
theorem test_decode_cksum_rx : decode 0b0000001100000001#16 = .ok (.cksum 0x01#8) := by decide
theorem test_decode_locate : decode 0b0000010000000000#16 = .ok (.locate 0x00#8) := by decide
theorem test_decode_decop : decode 0b0000010100000000#16 = .ok (.decop 0x00#8) := by decide
theorem test_decode_decpre : decode 0b0000011000000000#16 = .ok (.decpre 0x00#8) := by decide
theorem test_decode_declen : decode 0b0000011100000000#16 = .ok (.declen 0x00#8) := by decide
theorem test_decode_swinit : decode 0b0001000000000001#16 = .ok (.swinit 0x01#8) := by decide
theorem test_decode_swpoll : decode 0b0001000100000001#16 = .ok (.swpoll 0x01#8) := by decide

theorem test_decode_unlisted :
    [0x0000#16, 0x0800#16, 0x0F00#16, 0x1200#16, 0xFF00#16].map decode =
      List.replicate 5 (.error .unlistedOpc) := by decide +kernel
theorem test_decode_required_zero :
    [0x0201#16, 0x0302#16, 0x0401#16, 0x0580#16, 0x0701#16, 0x1002#16, 0x11FF#16].map decode =
      List.replicate 7 (.error .requiredZeroImm) := by decide +kernel
theorem test_decode_table_word : decodeTableWord 16 0x1101 = some (.swpoll 0x01#8) := by decide

/-! ### The smoke test of WellFormed: an ill-formed term for each check -/

theorem test_ill_formed_zero_imm :
    ∀ i ∈ [Instr.presetreq 0x80#8, .locate 0x01#8, .decop 0x80#8, .decpre 0x01#8, .declen 0x01#8],
      i.wellFormed = false := by decide
theorem test_ill_formed_high_imm :
    ∀ i ∈ [Instr.cksum 0x02#8, .swinit 0x02#8, .swpoll 0xFF#8], i.wellFormed = false := by decide
theorem test_well_formed :
    ∀ i ∈ [Instr.build 0xFF#8, .presetreq 0x00#8, .cksum 0x01#8, .swinit 0x01#8], i.wellFormed = true := by decide

/-! ### Checksum (V1 to V4) -/

theorem test_crc_bit : [0x00#8, 0x01#8, 0x40#8, 0x80#8, 0x81#8, 0xFF#8].map crcBit =
    [0x00#8, 0x02#8, 0x80#8, 0x07#8, 0x05#8, 0xF9#8] := by decide
theorem test_crc8_byte : crc8 [0x43#8] = 0xCE#8 := by decide
theorem test_crc8_two_bytes : crc8 [0xFF#8, 0xFF#8] = 0x24#8 := by decide +kernel
theorem test_pack_odd_tail : pack [0xAB#8, 0xCD#8, 0xEF#8] = [0xBD#8] := by decide
theorem test_cksum_frame :
    (nextOf (exec (.cksum 0x00#8) { afterPreset with argBase := 2#16, argLen := 14#16 })).ckOut = 0x07#8 := by
  decide +kernel
theorem test_cksum_past_limit :
    (nextOf (exec (.cksum 0x00#8) { afterPreset with argBase := 3#16, argLen := 14#16 })).status = 0x0005#16 := by
  decide +kernel

/-! ### Frame encoder (V5, V6) -/

theorem test_build_field :
    (nextOf (exec (.build 0x10#8) { base with payloadBuf := bytes [0x0A#8], argLen := 1#16 })).txBuf.region 3 2 =
      [0x07#8, 0x03#8] := by decide +kernel
theorem test_build_too_long :
    [121, 255, 256, 1010, 1011, 65535].map
      (fun n => (nextOf (exec (.build 0x01#8) { base with argLen := BitVec.ofNat 16 n })).status.toNat) =
      [4, 4, 3, 3, 2, 2] := by decide +kernel
theorem test_presetreq_frame :
    (nextOf (exec (.presetreq 0x00#8) { base with argLen := 500#16 })).txBuf.region 0 16 = presetFrame := by
  decide +kernel
theorem test_presetreq_keeps_arg_len :
    (nextOf (exec (.presetreq 0x00#8) { base with argLen := 500#16 })).argLen = 500#16 := by decide +kernel

/-! ### Frame decoder (V7, V8) -/

theorem test_locate_first :
    (nextOf (exec (.locate 0x00#8) { base with rxBuf := bytes [0xF7#8, 0xF0#8, 0xF0#8], rxLen := 3#16 })).locIdx = 1#16 := by
  decide +kernel
theorem test_locate_empty : (nextOf (exec (.locate 0x00#8) { base with locIdx := 2#16 })).locIdx = 0xFFFF#16 := by
  decide +kernel
theorem test_decop : (nextOf (exec (.decop 0x00#8) (rxResponse 15))).decOut = 0x05#8 := by decide +kernel
theorem test_decop_range : (nextOf (exec (.decop 0x00#8) (rxResponse 14))).status = 0x0007#16 := by decide +kernel
theorem test_decpre : (nextOf (exec (.decpre 0x00#8) (rxResponse 17))).decOut = 0x23#8 := by decide +kernel
theorem test_decpre_range : (nextOf (exec (.decpre 0x00#8) (rxResponse 16))).decOut = 0xFF#8 := by decide +kernel
theorem test_declen : (nextOf (exec (.declen 0x00#8) (rxResponse 11))).decOut = 0x02#8 := by decide +kernel
theorem test_declen_not_found : (nextOf (exec (.declen 0x00#8) (rxResponse 2))).status = 0x0006#16 := by decide +kernel

/-! ### Debouncer (V9 to V12) -/

theorem test_swinit_pressed :
    (nextOf (exec (.swinit 0x00#8) { base with pin0 := 0#1 })).contact0 = ⟨0xFF#8, .closed, 1000#32, true⟩ := by
  decide +kernel
theorem test_swinit_other_contact :
    (nextOf (exec (.swinit 0x01#8) { base with pin0 := 0#1 })).contact0 = ContactState.reset := by decide +kernel
theorem test_swpoll_gate_wraps :
    (nextOf (exec (.swpoll 0x00#8) (seeded 0x00#8 .opened 0xFFFFFFFA#32 1#1 3#32))).status = 0x0000#16 ∧
    (nextOf (exec (.swpoll 0x00#8) (seeded 0x00#8 .opened 0xFFFFFFFA#32 1#1 4#32))).contact0.last = 4#32 := by
  decide +kernel
theorem test_swpoll_latches :
    (nextOf (exec (.swpoll 0x00#8) (seeded 0x03#8 .opened 0#32 0#1 10#32))).contact0 = ⟨0xFF#8, .closed, 10#32, true⟩ ∧
    (nextOf (exec (.swpoll 0x00#8) (seeded 0x9F#8 .closed 0#32 0#1 10#32))).contact0 = ⟨0xFF#8, .closed, 10#32, true⟩ := by
  decide +kernel
theorem test_position :
    State.posWord { base with contact0 := ⟨0xFF#8, .closed, 0#32, true⟩ } = 0x0001#16 ∧
    State.posWord { base with
      contact0 := ⟨0x00#8, .opened, 0#32, true⟩, contact1 := ⟨0xFF#8, .closed, 0#32, true⟩ } = 0x0006#16 := by decide

/-! ### Host, step -/

theorem test_step_illegal : (nextOf (step (withCmd base 0x0800))).status = 0x0001#16 := by decide +kernel
theorem test_step_uninit : (nextOf (step (withCmd base 0x1101))).status = 0x0008#16 := by decide +kernel
theorem test_step_fetch_word : (nextOf (step (base.withFetchWord 16 0x0200))).txLen = 16#16 := by decide +kernel
theorem test_register_0xF : refusalOf (step { base with inbox := [.host (.writeReg 0xF 1)] }) = some .noSuchRegister := by
  decide +kernel
theorem test_host_write_wraps :
    (nextOf (step { base with inbox := [.host (.writeReg 0x2 65537)] })).argLen = 1#16 := by decide +kernel

/-! ### Witnesses: concrete states and operands that meet each statement's hypotheses -/

theorem witness_reset_event : { base with inbox := [Event.reset] }.inbox = .reset :: [] := rfl

/-- A state of the invariant whose step runs PRESETREQ. -/
theorem witness_inv : (withCmd base 0x0200).Inv ∧ ∃ t, step (withCmd base 0x0200) = .next t := by
  refine ⟨⟨by decide, by decide, by decide, .inl rfl, by decide, by decide, by decide, by decide, ?_, ?_⟩, _, rfl⟩
  · intro c; cases c <;> exact fun _ => rfl
  · intro c; cases c <;> decide

theorem witness_round_trip : (Instr.swpoll 0x01#8).wellFormed = true ∧ decode 0x1101#16 = .ok (.swpoll 0x01#8) := by decide

theorem witness_step_runs :
    (withCmd base 0x0200).inbox = .host (.writeReg 0x0 0x0200) :: [] ∧
      decode (BitVec.ofNat 16 0x0200) = .ok (.presetreq 0x00#8) := ⟨rfl, by decide⟩

/-- One word for each clause of R64, at the ends of its range. -/
theorem witness_illegal_words :
    0x0000 % 65536 / 256 = 0x00 ∧ 0x0800 % 65536 / 256 = 0x08 ∧ 0x0F00 % 65536 / 256 = 0x0F ∧ 0x1200 % 65536 / 256 = 0x12 ∧
    (0x0201 % 65536 / 256 = 0x02 ∧ 0x0201 % 256 ≠ 0) ∧ (0x0302 % 65536 / 256 = 0x03 ∧ 0x0302 % 256 / 2 ≠ 0) ∧
    (withCmd base 0x0201).inbox = .host (.writeReg 0x0 0x0201) :: [] :=
  ⟨by decide, by decide, by decide, by decide, by decide, by decide, rfl⟩

theorem witness_ill_formed : (Instr.swinit 0x02#8).wellFormed = false := by decide

theorem witness_idle : base.inbox = [] := rfl

/-- CKSUM TX on the largest region of the largest frame, and CKSUM RX on the smallest region that passes. -/
theorem witness_cksum :
    (let s : State := { base with txLen := 134#16, argBase := 2#16, argLen := 132#16 }
     (0x00#8 : Byte) &&& 0xFE#8 = 0x00#8 ∧ s.argBase.toNat + s.argLen.toNat ≤ s.txLen.toNat ∧
       s.argBase.toNat + s.argLen.toNat ≤ 1024 ∧ 4 ≤ s.argLen.toNat ∧ s.argLen.toNat ≤ 132) ∧
    (let s : State := { base with rxLen := 4#16, argLen := 4#16 }
     (0x01#8 : Byte) &&& 0xFE#8 = 0x00#8 ∧ s.rxLen.toNat ≤ s.rxCap.toNat ∧
       s.argBase.toNat + s.argLen.toNat ≤ s.rxLen.toNat ∧ 4 ≤ s.argLen.toNat ∧ s.argLen.toNat ≤ 132) := by decide

/-- Each malformed region at its boundary, and a region that only the bound of 128 bytes rejects. -/
theorem witness_cksum_errors :
    { base with rxLen := 257#16 }.rxLen.toNat > base.rxCap.toNat ∧
    { base with argLen := 3#16 }.argLen.toNat < 4 ∧
    { base with argBase := 3#16, argLen := 14#16, txLen := 16#16 }.argBase.toNat + 14 > 16 ∧
    ({ base with txLen := 134#16, argLen := 133#16 }.argLen.toNat > 132 ∧ 0 + 133 ≤ 134) := by decide

/-- The fault's condition can be met by a state, and fails at the capacity. -/
theorem witness_cksum_beyond_tx_buf :
    (let s : State := { base with txLen := 1025#16, argBase := 1021#16, argLen := 4#16 }
     4 ≤ s.argLen.toNat ∧ s.argLen.toNat ≤ 132 ∧ s.argBase.toNat + s.argLen.toNat ≤ s.txLen.toNat ∧
       1024 < s.argBase.toNat + s.argLen.toNat) ∧
    isNext (exec (.cksum 0x00#8) { base with txLen := 1024#16, argBase := 1020#16, argLen := 4#16 }) = true := by
  decide +kernel

/-- Two regions with an odd tail that differ in high nibbles, in the first three bytes, in the tail and in the terminator. -/
theorem witness_low_nibbles :
    let r : List Byte := [0xF0#8, 0x00#8, 0x07#8, 0x01#8, 0x02#8, 0x03#8, 0xF7#8]
    let r' : List Byte := [0x00#8, 0x0F#8, 0x00#8, 0xF1#8, 0x72#8, 0x04#8, 0x00#8]
    r.length = r'.length ∧ ∀ k, k < 2 * ((r.length - 4) / 2) →
      (r.getD (3 + k) 0x00#8).toNat % 16 = (r'.getD (3 + k) 0x00#8).toNat % 16 := by decide

theorem witness_bit_flip : presetFrame.length ≤ 132 ∧ 9 < 2 * ((presetFrame.length - 4) / 2) ∧ 3 < 4 := by decide

theorem witness_every_command_next :
    ∀ i ∈ [Instr.build 0x02#8, .presetreq 0x00#8, .cksum 0x00#8, .locate 0x00#8, .decop 0x00#8, .decpre 0x00#8, .declen 0x00#8,
      .swinit 0x00#8, .swpoll 0x00#8], isNext (exec i base) = true := by decide +kernel

theorem witness_build_lengths :
    { base with argLen := 120#16 }.argLen.toNat ≤ 120 ∧ 120 < { base with argLen := 121#16 }.argLen.toNat := by decide

theorem witness_build_ok :
    (∃ t, exec (.build 0x02#8) base = .next t ∧ errOf t.status = 0#4) ∧
    ∃ t, exec (.presetreq 0x00#8) base = .next t ∧ errOf t.status = 0#4 :=
  ⟨⟨_, rfl, by decide⟩, _, rfl, by decide⟩

/-- Two builds of length 1: the types and the payload byte, an odd tail, differ in uncovered bits. -/
theorem witness_uncovered_bits :
    { base with argLen := 1#16 }.argLen.toNat ≤ 120 ∧ (0x02#8 : Byte).toNat % 16 = (0x12#8 : Byte).toNat % 16 ∧
    (∀ k, k < 2 * (1 / 2) → ((bytes [0x04#8]).read k).toNat % 16 = ((bytes [0x05#8]).read k).toNat % 16) ∧
    (∃ t, exec (.build 0x02#8) { base with argLen := 1#16, payloadBuf := bytes [0x04#8] } = .next t) ∧
    ∃ t, exec (.build 0x12#8) { base with argLen := 1#16, payloadBuf := bytes [0x05#8] } = .next t :=
  ⟨by decide, by decide, by decide, ⟨_, rfl⟩, _, rfl⟩

/-- LOCATE and the decoders: RX_LEN over the capacity, no start byte, and the first start byte at index 2. -/
theorem witness_rx :
    (rxResponse 257).rxLen.toNat > (rxResponse 257).rxCap.toNat ∧
    ((rxResponse 2).rxLen.toNat ≤ (rxResponse 2).rxCap.toNat ∧
      ∀ i < (rxResponse 2).rxLen.toNat, (rxResponse 2).rxBuf.read i ≠ 0xF0#8) ∧
    ((rxResponse 18).rxLen.toNat ≤ (rxResponse 18).rxCap.toNat ∧ 2 < (rxResponse 18).rxLen.toNat ∧
      (rxResponse 18).rxBuf.read 2 = 0xF0#8 ∧ ∀ j < 2, (rxResponse 18).rxBuf.read j ≠ 0xF0#8) := by decide +kernel

/-- The field range at its boundary, for each field: RX_LEN = s + k + 1 is out of range and one more is in range. -/
theorem witness_field_range :
    (rxResponse 14).rxLen.toNat ≤ 2 + 11 + 1 ∧ 2 + 11 + 1 < (rxResponse 15).rxLen.toNat ∧
    (rxResponse 16).rxLen.toNat ≤ 2 + 13 + 1 ∧ 2 + 13 + 1 < (rxResponse 17).rxLen.toNat ∧
    (rxResponse 10).rxLen.toNat ≤ 2 + 7 + 1 ∧ 2 + 7 + 1 < (rxResponse 11).rxLen.toNat := by decide

/-- A build with TX_LEN = 14, and for every such build a state that holds its frame in RX_BUF. -/
theorem witness_declen :
    isNext (exec (.build 0x02#8) base) = true ∧ (nextOf (exec (.build 0x02#8) base)).txLen = 14#16 ∧
    ∀ t : State, t.txLen = 14#16 →
      (let u : State := { base with rxBuf := t.txBuf, rxLen := t.txLen }
       u.rxLen = t.txLen ∧ u.rxLen.toNat ≤ u.rxCap.toNat ∧ ∀ i < u.rxLen.toNat, u.rxBuf.read i = t.txBuf.read i) := by
  refine ⟨by decide +kernel, by decide +kernel, fun t h => ⟨rfl, ?_, fun _ _ => rfl⟩⟩
  simp [h, base]

/-- Two receive buffers that differ from RX_LEN on. -/
theorem witness_beyond_rx_len :
    (∀ j < (rxResponse 2).rxLen.toNat, (bytes [0x80#8, 0x80#8, 0x00#8]).read j = (rxResponse 2).rxBuf.read j) ∧
    isNext (exec (.locate 0x00#8) (rxResponse 2)) = true := by decide +kernel

theorem witness_imm_contact :
    (0x02#8 : Byte) &&& 0xFE#8 ≠ 0x00#8 ∧ (0x01#8 : Byte) &&& 0xFE#8 = 0x00#8 := by decide

/-- SWPOLL: unseeded, gate closed by 1 ms, and gate just open. -/
theorem witness_swpoll :
    base.contact0.init = false ∧ (seeded 0x03#8 .opened 1#32 0#1 10#32).contact0.init = true ∧
    (10 + 2 ^ 32 - 1) % 2 ^ 32 < 10 ∧ 10 ≤ (10 + 2 ^ 32 - 0) % 2 ^ 32 := by decide

theorem witness_gate :
    ((seeded 0x00#8 .opened 0#32 0#1 9#32).contact (contactOf 0x00#8)).init = true ∧
    ((9#32 : Time) - 0#32).toNat < 10 ∧ 10 ≤ ((10#32 : Time) - 0#32).toNat ∧
    (seeded 0x00#8 .opened 0#32 0#1 9#32).now = (0#32 : Time) + 9#32 := by decide

theorem witness_three_polls :
    ((seeded 0x00#8 .opened 0#32 0#1 0#32).contact (contactOf 0x00#8)).init = true ∧
    ((seeded 0x00#8 .opened 0#32 0#1 0#32).contact (contactOf 0x00#8)).hist = 0x00#8 ∧
    ((seeded 0xFF#8 .closed 0#32 1#1 0#32).contact (contactOf 0x00#8)).latch = .closed ∧
    10 ≤ ((10#32 : Time) - 0#32).toNat ∧ 10 ≤ ((20#32 : Time) - 10#32).toNat ∧ 10 ≤ ((30#32 : Time) - 20#32).toNat := by
  decide

/-- A history that locks out (0x15, R149), and one that does not. -/
theorem witness_lock_out :
    (∀ j < 8, ((0x15#8 <<< (j + 1)) ||| BitVec.ofNat 8 (2 ^ (j + 1) - 1)) &&& 0xC7#8 ≠ 0x07#8) ∧
    ((0x00#8 <<< 3) ||| BitVec.ofNat 8 (2 ^ 3 - 1)) &&& 0xC7#8 = 0x07#8 ∧
    ((seeded 0x15#8 .opened 0#32 0#1 0#32).contact (contactOf 0x00#8)).latch = .opened ∧
    ((seeded 0xEA#8 .closed 0#32 1#1 0#32).contact (contactOf 0x00#8)).latch = .closed := by decide

/-- The runs of R147 (three polls latch) and of R149's example (0x15 stays OPENED, at 0xFF), and the membership of 0x15 and
0x00 in the no-close set of V13. -/
theorem test_held_polls :
    ((⟨0x00#8, .opened, 0#32, true⟩ : ContactState).heldPolls 0#1 [10#32, 20#32, 30#32]).latch = .closed ∧
    ((⟨0x15#8, .opened, 0#32, true⟩ : ContactState).heldPolls 0#1
      [10#32, 20#32, 30#32, 40#32, 50#32, 60#32, 70#32, 80#32]) = ⟨0xFF#8, .opened, 80#32, true⟩ ∧
    0x15#8 ∈ noCloseHistories ∧ 0x00#8 ∉ noCloseHistories := by decide +kernel

/-- Polls that change the latch, in both directions. -/
theorem witness_latch_change :
    (nextOf (exec (.swpoll 0x00#8) (seeded 0x03#8 .opened 0#32 0#1 10#32))).contact0.latch ≠ .opened ∧
    (nextOf (exec (.swpoll 0x00#8) (seeded 0xFC#8 .closed 0#32 1#1 10#32))).contact0.latch ≠ .closed ∧
    isNext (exec (.swpoll 0x00#8) (seeded 0x03#8 .opened 0#32 0#1 10#32)) = true := by decide +kernel

/-- NOW stepping back from 100 to 50 (V10), and a gap of 2^32 + 9. -/
theorem witness_clock_steps :
    (seeded 0x00#8 .opened 100#32 1#1 50#32).now = (100#32 : Time) - BitVec.ofNat 32 50 ∧
    (seeded 0x00#8 .opened 100#32 1#1 109#32).now = (100#32 : Time) + BitVec.ofNat 32 (2 ^ 32 + 9) := by decide

theorem witness_position :
    (∃ s : State, s.contact0.latch = .closed ∧ s.contact1.latch = .opened) ∧
    (∃ s : State, s.contact0.latch = .opened ∧ s.contact1.latch = .closed) ∧
    (∃ s : State, s.contact0.latch = .opened ∧ s.contact1.latch = .opened) ∧
    ∃ s : State, s.contact0.latch = .closed ∧ s.contact1.latch = .closed :=
  ⟨⟨{ base with contact0 := ⟨0xFF#8, .closed, 0#32, true⟩ }, rfl, rfl⟩,
    ⟨{ base with contact1 := ⟨0xFF#8, .closed, 0#32, true⟩ }, rfl, rfl⟩, ⟨base, rfl, rfl⟩,
    ⟨{ base with contact0 := ⟨0xFF#8, .closed, 0#32, true⟩, contact1 := ⟨0xFF#8, .closed, 0#32, true⟩ }, rfl, rfl⟩⟩

/-- A step on a CMD write that changes STATUS. -/
theorem witness_status_changes :
    (withCmd base 0x0000).inbox = .host (.writeReg 0x0 0x0000) :: [] ∧
    (nextOf (step (withCmd base 0x0000))).status ≠ base.status ∧ isNext (step (withCmd base 0x0000)) = true :=
  ⟨rfl, by decide, by decide⟩

/-- For each error code, a command that ends with it. -/
theorem witness_failing_commands :
    [(nextOf (exec (.presetreq 0x01#8) base)), (nextOf (exec (.build 0x00#8) { base with argLen := 2000#16 })),
      (nextOf (exec (.build 0x00#8) { base with argLen := 300#16 })),
      (nextOf (exec (.build 0x00#8) { base with argLen := 121#16 })), (nextOf (exec (.cksum 0x00#8) base)),
      (nextOf (exec (.locate 0x00#8) base)), (nextOf (exec (.decop 0x00#8) (rxResponse 14))),
      (nextOf (exec (.swpoll 0x01#8) base))].map (fun t => (errOf t.status).toNat) = [1, 2, 3, 4, 5, 6, 7, 8] := by
  decide +kernel

/-- Commands that write each result and each contact. -/
theorem witness_results_change :
    (nextOf (exec (.presetreq 0x00#8) base)).txLen ≠ base.txLen ∧
    (nextOf (exec (.cksum 0x00#8) { afterPreset with argBase := 2#16, argLen := 14#16 })).ckOut ≠ base.ckOut ∧
    (nextOf (exec (.locate 0x00#8) (rxResponse 18))).locIdx ≠ base.locIdx ∧
    (nextOf (exec (.decop 0x00#8) (rxResponse 18))).decOut ≠ base.decOut ∧
    (nextOf (exec (.swinit 0x01#8) base)).contact1 ≠ base.contact1 := by decide +kernel

theorem witness_other_command :
    (∀ imm, Instr.locate 0x00#8 ≠ .build imm ∧ Instr.locate 0x00#8 ≠ .presetreq imm) ∧
    (∀ imm, Instr.locate 0x00#8 ≠ .cksum imm) := by simp

theorem witness_halves : isDebouncerCommand (.build 0x00#8) = false ∧ isDebouncerCommand (.swpoll 0x00#8) = true := by decide

theorem witness_register_accesses :
    { base with inbox := [Event.host (.writeReg 0x2 7)] }.inbox = .host (.writeReg 0x2 7) :: [] ∧
    { base with inbox := [Event.host (.readReg 0xE)] }.inbox = .host (.readReg 0xE) :: [] := ⟨rfl, rfl⟩

theorem witness_buffer_accesses :
    { base with inbox := [Event.host (.readByte .txBuf 1023)] }.inbox = .host (.readByte .txBuf 1023) :: [] ∧
    { base with inbox := [Event.host (.writeByte .rxBuf 255 1#8)] }.inbox = .host (.writeByte .rxBuf 255 1#8) :: [] :=
  ⟨rfl, rfl⟩

/-- A byte written to PAYLOAD_BUF and read back. -/
theorem witness_read_back :
    let s : State := { base with inbox := [.host (.writeByte .payloadBuf 255 0x5A#8), .host (.readByte .payloadBuf 255)] }
    isNext (step s) = true ∧ isNext (step (nextOf (step s))) = true := by decide +kernel

theorem witness_environment :
    { base with inbox := [Event.pin .c1 0#1] }.inbox = .pin .c1 0#1 :: [] ∧
    { base with inbox := [Event.now 5#32] }.inbox = .now 5#32 :: [] := ⟨rfl, rfl⟩

end Sys2Proof.Tests
end

