-- ==== Sys2Proof/Proofs/Scope.lean ====
section
/-! PROOFS. The scope of the block (spec/00_scope.md): which commands stop, the independence of its two halves, and the idle
block. -/

namespace Sys2Proof.Machine

/-! ### Which commands stop -/

/-- The IMM of a legal CKSUM TX: no required-zero bit, and SEL = 0 (spec/30_encoding.md R63). -/
theorem legal_tx_imm_iff (imm : Byte) : immHighNonzero imm = false ∧ selectsRx imm = false ↔ imm = 0x00#8 := by
  revert imm; decide

/-- CKSUM faults exactly on a legal TX region that passes its checks and leaves TX_BUF (log entry 6). -/
theorem execCksum_eq_fault_iff (imm : Byte) (s : State) (f : Fault) :
    execCksum imm s = .fault f ↔ imm = 0x00#8 ∧ s.cksumCheck false = none ∧
      1024 < s.argBase.toNat + s.argLen.toNat := by
  rw [← legal_tx_imm_iff]
  unfold execCksum
  split
  · next hillegal => simp [hillegal]
  · next hlegal =>
    split
    · next e hcheck =>
      simp only [reduceCtorEq, false_iff]
      rintro ⟨⟨-, htx⟩, hnone, -⟩
      simp [htx, hnone] at hcheck
    · next hcheck =>
      split
      · next hbeyond =>
        obtain ⟨htx, hpast⟩ := hbeyond
        cases f
        simpa [hlegal, htx] using ⟨by simpa [htx] using hcheck, hpast⟩
      · next hwithin =>
        simp only [reduceCtorEq, false_iff]
        rintro ⟨⟨-, htx⟩, -, hpast⟩
        exact hwithin ⟨htx, hpast⟩

/-- CKSUM is never refused. -/
theorem execCksum_ne_refused (imm : Byte) (s : State) (r : Refusal) : execCksum imm s ≠ .refused r := by
  unfold execCksum
  split
  · simp
  · split
    · simp
    · split <;> simp

/-- Every command but CKSUM answers a next state in every state. -/
theorem exec_next_or_cksum (i : Instr) (s : State) : (∃ t, exec i s = .next t) ∨ ∃ imm, i = .cksum imm := by
  cases i with
  | cksum imm => exact .inr ⟨imm, rfl⟩
  | build | presetreq | locate | decop | decpre | declen | swinit | swpoll => exact .inl ⟨_, rfl⟩

/-- Settles O15: every command but CKSUM answers a next state, and CKSUM's one stop is that of `execCksum_eq_fault_iff`. -/
theorem onlyCksumBeyondTxBufStops : Obligations.OnlyCksumBeyondTxBufStops := by
  intro i s
  rcases exec_next_or_cksum i s with ⟨t, ht⟩ | ⟨imm, rfl⟩
  · refine ⟨by simp [ht], fun ⟨f, hf⟩ => by simp [ht] at hf, ?_⟩
    rintro ⟨imm, rfl, himm, h4, h132, hlen, hpast⟩
    have hcheck := (s.cksumCheck_eq_none_iff false).mpr ⟨by simp, h4, hlen, h132⟩
    have hfault := (execCksum_eq_fault_iff imm s .txBufOverrun).mpr ⟨himm, hcheck, hpast⟩
    exact absurd (ht.symm.trans hfault) (by simp)
  · refine ⟨execCksum_ne_refused imm s, ?_⟩
    simp only [exec, execCksum_eq_fault_iff, State.cksumCheck_eq_none_iff, State.cksumLimit]
    constructor
    · rintro ⟨-, himm, ⟨-, h4, hlen, h132⟩, hpast⟩
      exact ⟨imm, rfl, himm, h4, h132, hlen, hpast⟩
    · rintro ⟨imm', heq, himm, h4, h132, hlen, hpast⟩
      cases heq
      exact ⟨.txBufOverrun, himm, ⟨by simp, h4, hlen, h132⟩, hpast⟩

/-! ### The two halves -/

/-- An outcome with its next state, if it is one, put through a change of state. -/
def mapNext (f : State → State) : Host.Outcome State Fault Refusal → Host.Outcome State Fault Refusal
  | .next t => .next (f t)
  | .fault e => .fault e
  | .refused r => .refused r

@[simp] theorem mapNext_next (f : State → State) (t : State) : mapNext f (.next t) = .next (f t) := rfl

/-! What the commands read of a state that has the debouncer half of another. The codec proofs below rewrite by these with
`-implicitDefEqProofs`, so that the decision procedures inside the checks are rewritten with them, and one `split` decides a
check in both runs. -/

@[simp] theorem State.withDebouncerOf_argLen (s u : State) : (s.withDebouncerOf u).argLen = s.argLen := rfl
@[simp] theorem State.withDebouncerOf_argBase (s u : State) : (s.withDebouncerOf u).argBase = s.argBase := rfl
@[simp] theorem State.withDebouncerOf_rxLen (s u : State) : (s.withDebouncerOf u).rxLen = s.rxLen := rfl
@[simp] theorem State.withDebouncerOf_rxCap (s u : State) : (s.withDebouncerOf u).rxCap = s.rxCap := rfl
@[simp] theorem State.withDebouncerOf_payloadBuf (s u : State) : (s.withDebouncerOf u).payloadBuf = s.payloadBuf := rfl
@[simp] theorem State.withDebouncerOf_rxBuf (s u : State) : (s.withDebouncerOf u).rxBuf = s.rxBuf := rfl
@[simp] theorem State.withDebouncerOf_now (s u : State) : (s.withDebouncerOf u).now = u.now := rfl
@[simp] theorem State.withDebouncerOf_contact (s u : State) (c : Contact) : (s.withDebouncerOf u).contact c = u.contact c := by
  cases c <;> rfl
@[simp] theorem State.withDebouncerOf_pin (s u : State) (c : Contact) : (s.withDebouncerOf u).pin c = u.pin c := by
  cases c <;> rfl
@[simp] theorem State.withDebouncerOf_cksumCheck (s u : State) (rx : Bool) :
    (s.withDebouncerOf u).cksumCheck rx = s.cksumCheck rx := rfl

/-- Building a frame reads and writes the codec half only. -/
theorem State.buildFrame_withDebouncerOf (s u : State) (type : Byte) (payload : List Byte) :
    (s.withDebouncerOf u).buildFrame type payload = (s.buildFrame type payload).withDebouncerOf u := by
  simp only [State.buildFrame, State.emitFrame_eq]
  rfl

/-- BUILD commutes with replacing the debouncer half. -/
theorem execBuild_withDebouncerOf (imm : Byte) (s u : State) :
    execBuild imm (s.withDebouncerOf u) = mapNext (·.withDebouncerOf u) (execBuild imm s) := by
  simp only [execBuild, State.withDebouncerOf_argLen, State.withDebouncerOf_payloadBuf, mapNext_next]
  cases buildCheck s.argLen.toNat with
  | none => exact congrArg _ (s.buildFrame_withDebouncerOf u _ _)
  | some e => rfl

/-- PRESETREQ commutes with replacing the debouncer half. -/
theorem execPresetreq_withDebouncerOf (imm : Byte) (s u : State) :
    execPresetreq imm (s.withDebouncerOf u) = mapNext (·.withDebouncerOf u) (execPresetreq imm s) := by
  unfold execPresetreq
  split
  · rfl
  · exact congrArg _ (s.buildFrame_withDebouncerOf u _ _)

/-- CKSUM, its fault included, commutes with replacing the debouncer half. -/
theorem execCksum_withDebouncerOf (imm : Byte) (s u : State) :
    execCksum imm (s.withDebouncerOf u) = mapNext (·.withDebouncerOf u) (execCksum imm s) := by
  simp -implicitDefEqProofs only [execCksum, State.withDebouncerOf_cksumCheck, State.withDebouncerOf_argBase,
    State.withDebouncerOf_argLen]
  split
  · rfl
  · cases s.cksumCheck (selectsRx imm) with
    | some e => rfl
    | none => dsimp only; split <;> rfl

/-- LOCATE commutes with replacing the debouncer half. -/
theorem execLocate_withDebouncerOf (imm : Byte) (s u : State) :
    execLocate imm (s.withDebouncerOf u) = mapNext (·.withDebouncerOf u) (execLocate imm s) := by
  simp -implicitDefEqProofs only [execLocate, State.withDebouncerOf_rxLen, State.withDebouncerOf_rxCap,
    State.withDebouncerOf_rxBuf, mapNext_next]
  split
  · rfl
  · split
    · rfl
    · cases locate s.rxBuf s.rxLen.toNat <;> rfl

/-- decode_field(k) reads and writes the codec half only. -/
theorem State.decodeField_withDebouncerOf (s u : State) (imm : Byte) (k : Nat) :
    (s.withDebouncerOf u).decodeField imm k = (s.decodeField imm k).withDebouncerOf u := by
  simp -implicitDefEqProofs only [State.decodeField, State.withDebouncerOf_rxLen, State.withDebouncerOf_rxCap,
    State.withDebouncerOf_rxBuf]
  split
  · rfl
  · split
    · rfl
    · cases locate s.rxBuf s.rxLen.toNat with
      | none => rfl
      | some i => dsimp only; split <;> rfl

/-- A codec command does the same whatever the debouncer half holds, and leaves that half. -/
theorem exec_withDebouncerOf_of_codec (i : Instr) (s u : State) (hi : isDebouncerCommand i = false) :
    exec i (s.withDebouncerOf u) = mapNext (·.withDebouncerOf u) (exec i s) := by
  cases i with
  | build imm => exact execBuild_withDebouncerOf imm s u
  | presetreq imm => exact execPresetreq_withDebouncerOf imm s u
  | cksum imm => exact execCksum_withDebouncerOf imm s u
  | locate imm => exact execLocate_withDebouncerOf imm s u
  | decop | decpre | declen => exact congrArg _ (s.decodeField_withDebouncerOf u _ _)
  | swinit | swpoll => cases hi

/-- `u` with STATUS and the debouncer half of `t`: all that a debouncer command gives to the state it runs in. -/
def State.withStatusAndDebouncerOf (u t : State) : State :=
  State.withDebouncerOf { u with status := t.status } t

theorem State.raise_withDebouncerOf (u s : State) (e : Err) :
    (u.withDebouncerOf s).raise e = u.withStatusAndDebouncerOf (s.raise e) := rfl

theorem State.complete_withDebouncerOf (u s : State) (b : Bool) :
    (u.withDebouncerOf s).complete b = u.withStatusAndDebouncerOf (s.complete b) := rfl

theorem State.setContact_withDebouncerOf (u s : State) (c : Contact) (k : ContactState) :
    (u.withDebouncerOf s).setContact c k = u.withDebouncerOf (s.setContact c k) := by
  cases c <;> rfl

/-- A debouncer command does the same whatever the codec half holds, and leaves that half but for STATUS. -/
theorem exec_withDebouncerOf_of_debouncer (i : Instr) (s u : State) (hi : isDebouncerCommand i = true) :
    exec i (u.withDebouncerOf s) = mapNext u.withStatusAndDebouncerOf (exec i s) := by
  cases i with
  | swinit imm =>
    simp only [exec, execSwinit, State.withDebouncerOf_pin, State.withDebouncerOf_now,
      State.setContact_withDebouncerOf, State.raise_withDebouncerOf, State.complete_withDebouncerOf, mapNext_next]
    split <;> rfl
  | swpoll imm =>
    simp only [exec, execSwpoll, State.withDebouncerOf_pin, State.withDebouncerOf_now, State.withDebouncerOf_contact,
      State.setContact_withDebouncerOf, State.raise_withDebouncerOf, State.complete_withDebouncerOf, mapNext_next]
    split
    · rfl
    · split
      · rfl
      · split <;> rfl
  | build | presetreq | cksum | locate | decop | decpre | declen => cases hi

/-- Settles O45: each half's commands commute with replacing the other half. -/
theorem codecAndDebouncerShareNoState : Obligations.CodecAndDebouncerShareNoState := by
  intro i s t u ht
  constructor
  · intro hi
    rw [exec_withDebouncerOf_of_codec i s u hi, ht, mapNext_next]
  · intro hi
    rw [exec_withDebouncerOf_of_debouncer i s u hi, ht, mapNext_next, State.withStatusAndDebouncerOf]

/-! ### The idle block -/

/-- Settles O12: a step takes the first pending event, and there is none. -/
theorem idleBlockHoldsItsState : Obligations.IdleBlockHoldsItsState := by
  intro s hidle
  rw [step, hidle]

end Sys2Proof.Machine
end

