-- ==== Sys2Proof/Proofs/State.lean ====
section
/-! PROOFS. The state (spec/10_state.md): the invariant of every run, what a command reads and writes, and the host's and the
environment's accesses of registers and ports. -/

namespace Sys2Proof.Machine

/-! ### The invariant, one update at a time -/

/-- A contact that SWINIT has not seeded is as reset left it, and the history holds no pattern the comparator still acts on:
the two clauses of the invariant that speak of a contact. -/
def ContactState.Settled (k : ContactState) : Prop :=
  (k.init = false → k = ContactState.reset) ∧ k.hist &&& 0xC7#8 ≠ 0x07#8 ∧ k.hist &&& 0xC7#8 ≠ 0xC0#8

theorem State.Inv.contact_settled {s : State} (hs : s.Inv) (c : Contact) : (s.contact c).Settled :=
  ⟨hs.unseeded c, hs.settled c⟩

theorem settled_reset : ContactState.reset.Settled :=
  ⟨fun _ => rfl, by decide⟩

theorem settled_seedContact (level : Level) (now : Time) : (seedContact level now).Settled := by
  refine ⟨by simp, ?_⟩
  unfold seedContact
  split
  · simp only; decide
  · simp only; decide

theorem settled_takePoll {k : ContactState} (hinit : k.init = true) (level : Level) (t : Time) :
    (k.takePoll level t).Settled :=
  ⟨by simp [hinit], compareHistory_settled _ _⟩

/-- POLL_TAKEN comes with ERR = OK only, so every STATUS that the model writes meets the invariant. -/
theorem State.Inv.withStatus {s : State} (hs : s.Inv) (e : Err) (taken : Bool) (hok : taken = true → e = .ok) :
    State.Inv { s with status := statusWord e taken } :=
  { hs with
    status_reserved := statusReserved_statusWord e taken
    status_err := by simpa using e.code_le
    status_taken := fun ht => by rw [hok (by simpa using ht)]; simp [Err.code] }

theorem State.Inv.raise {s : State} (hs : s.Inv) (e : Err) : (s.raise e).Inv :=
  hs.withStatus e false (by simp)

theorem State.Inv.complete {s : State} (hs : s.Inv) (taken : Bool) : (s.complete taken).Inv :=
  hs.withStatus .ok taken (fun _ => rfl)

theorem State.Inv.failCksum {s : State} (hs : s.Inv) (e : Err) : (s.failCksum e).Inv :=
  { hs.raise e with }

theorem State.Inv.failLocate {s : State} (hs : s.Inv) (e : Err) : (s.failLocate e).Inv :=
  { hs.raise e with }

theorem State.Inv.failDecode {s : State} (hs : s.Inv) (e : Err) : (s.failDecode e).Inv :=
  { hs.raise e with }

/-- A failed build leaves no frame, and TX_BUF unspecified (spec/41_encoder.md R105). -/
theorem State.Inv.failBuild {s : State} (hs : s.Inv) (e : Err) : (s.failBuild e).Inv :=
  { hs.raise e with
    tx_frame := .inl rfl
    tx_wf := Memory.wf_unspecified _ _ }

theorem State.Inv.cksumRegion {s : State} (hs : s.Inv) (rx : Bool) : (s.cksumRegion rx).Inv :=
  { hs.complete false with
    ckWork_wf := Memory.wf_unspecified _ _ }

/-- A built frame of at most 120 payload bytes is what the invariant wants in TX_BUF (spec/41_encoder.md R104, R107). -/
theorem State.Inv.buildFrame {s : State} (hs : s.Inv) (type : Byte) (payload : List Byte) (hlen : payload.length ≤ 120) :
    (s.buildFrame type payload).Inv := by
  have hframe : ∀ i < 1024, (s.buildFrame type payload).txBuf.read i = (frame type payload).getD i 0x00#8 :=
    fun i _ => s.read_buildFrame type payload i
  have hwf := s.wf_buildFrame type payload (by simp; omega)
  rw [s.buildFrame_frame type payload]
  exact { hs.complete false with
    tx_frame := .inr ⟨type, payload, hlen, by simp; omega, hframe⟩
    tx_wf := hwf
    ckWork_wf := Memory.wf_unspecified _ _ }

theorem State.Inv.setContact {s : State} (hs : s.Inv) (c : Contact) {k : ContactState} (hk : k.Settled) :
    (s.setContact c k).Inv := by
  have hsettled : ∀ d, ((s.setContact c k).contact d).Settled := fun d => by
    by_cases hd : d = c
    · rw [hd, State.setContact_contact]; exact hk
    · rw [State.setContact_contact_of_ne _ _ _ _ hd]; exact hs.contact_settled d
  have hunseeded := fun d => (hsettled d).1
  have hpattern := fun d => (hsettled d).2
  cases c with
  | c0 => exact { hs with unseeded := hunseeded, settled := hpattern }
  | c1 => exact { hs with unseeded := hunseeded, settled := hpattern }

/-- Reset gives every field of the invariant, whatever it leaves alone holds. -/
theorem inv_resetFrom (n : Nat) (rxCap : Half) (pin0 pin1 : Level) (now : Time) (inbox : List Event) (lastRead : BitVec 32) :
    (State.resetFrom n rxCap pin0 pin1 now inbox lastRead).Inv where
  status_reserved := show statusReserved 0x0000#16 = 0#11 by decide
  status_err := show (errOf 0x0000#16).toNat ≤ 8 by decide
  status_taken := show pollTakenOf 0x0000#16 = true → errOf 0x0000#16 = 0#4 by decide
  tx_frame := .inl rfl
  tx_wf := Memory.wf_unspecified _ _
  payload_wf := Memory.wf_unspecified _ _
  rx_wf := Memory.wf_unspecified _ _
  ckWork_wf := Memory.wf_unspecified _ _
  unseeded := fun c _ => by cases c <;> rfl
  settled := fun c => by cases c <;> exact settled_reset.2

/-- Every command keeps the invariant. -/
theorem State.Inv.exec {i : Instr} {s t : State} (hs : s.Inv) (h : exec i s = .next t) : t.Inv := by
  rcases exec_cases i s t h with
    ⟨imm, -, hbuild⟩ | ⟨imm, -, hpreset⟩ | ⟨imm, -, hcksum⟩ | ⟨imm, -, hlocate⟩ | ⟨imm, -, hdecode⟩ | ⟨imm, -, hswinit⟩ |
    ⟨imm, -, hswpoll⟩
  · rcases hbuild with ⟨e, -, rfl⟩ | ⟨hlen, rfl⟩
    · exact hs.failBuild e
    · exact hs.buildFrame _ _ (by simpa using hlen)
  · rcases hpreset with rfl | rfl
    · exact hs.raise _
    · exact hs.buildFrame _ _ (by simp)
  · rcases hcksum with rfl | ⟨e, rfl⟩ | ⟨-, rfl⟩
    · exact hs.raise _
    · exact hs.failCksum e
    · exact hs.cksumRegion _
  · rcases hlocate with rfl | ⟨e, rfl⟩ | ⟨k, rfl⟩
    · exact hs.raise _
    · exact hs.failLocate e
    · exact { hs.complete false with }
  · rcases hdecode with rfl | ⟨e, rfl⟩ | ⟨b, rfl⟩
    · exact hs.raise _
    · exact hs.failDecode e
    · exact { hs.complete false with }
  · rcases hswinit with rfl | rfl
    · exact hs.raise _
    · exact (hs.setContact _ (settled_seedContact _ _)).complete false
  · rcases hswpoll with ⟨e, rfl⟩ | rfl | ⟨hinit, -, rfl⟩
    · exact hs.raise e
    · exact hs.complete false
    · exact (hs.setContact _ (settled_takePoll hinit _ _)).complete true

/-- A CMD write keeps the invariant, whether the word is a command or illegal. -/
theorem State.Inv.writeCmd {s t : State} (hs : s.Inv) {w : Half} (h : s.writeCmd w = .next t) : t.Inv := by
  have hw : State.Inv { s with cmd := w } := { hs with }
  unfold State.writeCmd at h
  split at h
  · exact hw.exec h
  · cases h; exact hw.raise _

theorem State.Inv.writeReg {s t : State} (hs : s.Inv) {r : Reg} {v : Nat} (h : s.writeReg r v = .next t) : t.Inv := by
  by_cases hr : r = .cmd
  · subst hr; exact hs.writeCmd h
  · rcases s.writeReg_cases r v hr with hw | hw | hw | hw <;> cases hw.symm.trans h
    · exact hs
    · exact { hs with }
    · exact { hs with }
    · exact { hs with }

/-- A host write of a byte is below the buffer's capacity, so the buffer keeps its canonical form. -/
theorem State.Inv.hostWriteByte {s t : State} (hs : s.Inv) {b : HostBuffer} {i : Nat} {v : Byte}
    (h : s.hostWriteByte b i v = .next t) : t.Inv := by
  cases b with
  | txBuf => cases h
  | payloadBuf =>
    simp only [State.hostWriteByte] at h
    split at h
    · next hi => cases h; exact { hs with payload_wf := Memory.wf_write _ _ _ _ hs.payload_wf hi }
    · cases h
  | rxBuf =>
    simp only [State.hostWriteByte] at h
    split at h
    · next hi => cases h; exact { hs with rx_wf := Memory.wf_write _ _ _ _ hs.rx_wf hi }
    · cases h

theorem State.Inv.hostAccess {s t : State} (hs : s.Inv) {a : HostAccess} (h : s.hostAccess a = .next t) : t.Inv := by
  cases a with
  | writeReg n v =>
    simp only [State.hostAccess] at h
    split at h
    · exact hs.writeReg h
    · cases h
  | readReg n =>
    simp only [State.hostAccess] at h
    split at h
    · cases h; exact { hs with }
    · cases h
  | writeByte b i v => exact hs.hostWriteByte h
  | readByte b i =>
    simp only [State.hostAccess, State.hostReadByte] at h
    split at h
    · cases h; exact { hs with }
    · cases h

theorem State.Inv.handle {s t : State} (hs : s.Inv) {e : Event} (h : s.handle e = .next t) : t.Inv := by
  cases e with
  | host a => exact hs.hostAccess h
  | pin c level => cases c <;> cases h <;> exact { hs with }
  | now time => cases h; exact { hs with }
  | reset => cases h; exact inv_resetFrom _ _ _ _ _ _ _

/-- Settles O4: the event leaves the pending list, of which the invariant does not speak, and then `State.Inv.handle`. -/
theorem everyStepKeepsTheInvariant : Obligations.EveryStepKeepsTheInvariant := by
  intro s t hs h
  cases hin : s.inbox with
  | nil => rw [step, hin] at h; cases h; exact hs
  | cons e rest =>
    rw [step_of_cons s e rest hin] at h
    exact State.Inv.handle (s := { s with inbox := rest }) { hs with } h

/-- Settles O3: `State.reset` is `State.resetFrom`, so `inv_resetFrom` says it. -/
theorem resetMeetsTheInvariant : Obligations.ResetMeetsTheInvariant :=
  inv_resetFrom _ _ _ _ _ _ _

/-- Settles O1: the fields of `State.resetFrom`, and the background of the four buffers. -/
theorem resetHoldsTheTableValues : Obligations.ResetHoldsTheTableValues := by
  refine ⟨rfl, rfl, rfl, rfl, rfl, rfl, rfl, rfl, rfl, ?_, ?_, ?_, rfl, rfl, ?_, ?_⟩
  · decide
  · decide
  · decide
  · decide
  · exact ⟨fun _ => rfl, fun _ => rfl, fun _ => rfl, fun _ => rfl, rfl, rfl⟩

/-! ### What a command writes -/

/-- `s` with all that command `i` may write taken from `t`: STATUS, the results of its own rule, and what a build or a
checksum does to the hidden state (spec/10_state.md R12, R16 to R19, R21 to R23, R26). -/
def State.withResultsOf (s : State) (i : Instr) (t : State) : State :=
  match i with
  | .build _ | .presetreq _ =>
    { s with
      status := t.status, txLen := t.txLen, txBuf := t.txBuf
      ckWork := t.ckWork, crcAcc := t.crcAcc, wcur := t.wcur, draws := t.draws }
  | .cksum _ =>
    { s with
      status := t.status, ckOut := t.ckOut
      ckWork := t.ckWork, crcAcc := t.crcAcc, wcur := t.wcur, draws := t.draws }
  | .locate _ => { s with status := t.status, locIdx := t.locIdx }
  | .decop _ | .decpre _ | .declen _ => { s with status := t.status, decOut := t.decOut }
  | .swinit imm | .swpoll imm =>
    { s.setContact (contactOf imm) (t.contact (contactOf imm)) with status := t.status }

/-- A built frame stands in the results of BUILD, which are those of PRESETREQ too. -/
theorem State.buildFrame_results (s : State) (imm type : Byte) (payload : List Byte) :
    s.buildFrame type payload = s.withResultsOf (.build imm) (s.buildFrame type payload) := by
  rw [s.buildFrame_frame type payload]
  rfl

/-- The frame of every command: nothing changes but its own results. -/
theorem exec_frame {i : Instr} {s t : State} (h : exec i s = .next t) : t = s.withResultsOf i t := by
  rcases exec_cases i s t h with
    ⟨imm, rfl, hbuild⟩ | ⟨imm, rfl, hpreset⟩ | ⟨imm, rfl, hcksum⟩ | ⟨imm, rfl, hlocate⟩ | ⟨imm, hi, hdecode⟩ |
    ⟨imm, rfl, hswinit⟩ | ⟨imm, rfl, hswpoll⟩
  · rcases hbuild with ⟨e, -, rfl⟩ | ⟨-, rfl⟩
    · rfl
    · exact s.buildFrame_results imm _ _
  · rcases hpreset with rfl | rfl
    · rfl
    · exact s.buildFrame_results imm _ _
  · rcases hcksum with rfl | ⟨e, rfl⟩ | ⟨-, rfl⟩ <;> rfl
  · rcases hlocate with rfl | ⟨e, rfl⟩ | ⟨k, rfl⟩ <;> rfl
  · rcases hi with rfl | rfl | rfl <;> rcases hdecode with rfl | ⟨e, rfl⟩ | ⟨b, rfl⟩ <;> rfl
  · simp only [State.withResultsOf]
    rcases hswinit with rfl | rfl <;> cases contactOf imm <;> rfl
  · simp only [State.withResultsOf]
    rcases hswpoll with ⟨e, rfl⟩ | rfl | ⟨-, -, rfl⟩ <;> cases contactOf imm <;> rfl

section
variable {i : Instr} {s t : State} (h : exec i s = .next t)
include h

theorem txLen_changed_by (hne : t.txLen ≠ s.txLen) : ∃ imm, i = .build imm ∨ i = .presetreq imm := by
  rw [exec_frame h] at hne
  cases i with
  | build imm => exact ⟨imm, .inl rfl⟩
  | presetreq imm => exact ⟨imm, .inr rfl⟩
  | cksum | locate | decop | decpre | declen | swinit | swpoll => simp [State.withResultsOf] at hne

theorem ckOut_changed_by (hne : t.ckOut ≠ s.ckOut) : ∃ imm, i = .cksum imm := by
  rw [exec_frame h] at hne
  cases i with
  | cksum imm => exact ⟨imm, rfl⟩
  | build | presetreq | locate | decop | decpre | declen | swinit | swpoll => simp [State.withResultsOf] at hne

theorem locIdx_changed_by (hne : t.locIdx ≠ s.locIdx) : ∃ imm, i = .locate imm := by
  rw [exec_frame h] at hne
  cases i with
  | locate imm => exact ⟨imm, rfl⟩
  | build | presetreq | cksum | decop | decpre | declen | swinit | swpoll => simp [State.withResultsOf] at hne

theorem decOut_changed_by (hne : t.decOut ≠ s.decOut) : ∃ imm, i = .decop imm ∨ i = .decpre imm ∨ i = .declen imm := by
  rw [exec_frame h] at hne
  cases i with
  | decop imm => exact ⟨imm, .inl rfl⟩
  | decpre imm => exact ⟨imm, .inr (.inl rfl)⟩
  | declen imm => exact ⟨imm, .inr (.inr rfl)⟩
  | build | presetreq | cksum | locate | swinit | swpoll => simp [State.withResultsOf] at hne

theorem contact_changed_by (c : Contact) (hne : t.contact c ≠ s.contact c) :
    ∃ imm, (i = .swinit imm ∨ i = .swpoll imm) ∧ contactOf imm = c := by
  rw [exec_frame h] at hne
  have hother (imm : Byte) (k : ContactState) (hk : (s.setContact (contactOf imm) k).contact c ≠ s.contact c) :
      contactOf imm = c := by
    by_contra hc
    exact hk (State.setContact_contact_of_ne _ _ _ _ (Ne.symm hc))
  cases i with
  | swinit imm => exact ⟨imm, .inl rfl, hother imm _ hne⟩
  | swpoll imm => exact ⟨imm, .inr rfl, hother imm _ hne⟩
  | build | presetreq | cksum | locate | decop | decpre | declen => exact absurd rfl hne

end

/-- Settles O42: the frame of every command, read for each result register and each contact. -/
theorem resultsHaveTheirOwnCommands : Obligations.ResultsHaveTheirOwnCommands :=
  fun _ _ _ h => ⟨txLen_changed_by h, ckOut_changed_by h, locIdx_changed_by h, decOut_changed_by h, contact_changed_by h⟩

/-- Settles O43: no field it names is among any command's results. -/
theorem commandsLeaveTheirOperandsAlone : Obligations.CommandsLeaveTheirOperandsAlone := by
  intro i s t h
  rw [exec_frame h]
  cases i with
  | build | presetreq | cksum | locate | decop | decpre | declen =>
    exact ⟨rfl, rfl, rfl, rfl, fun _ => rfl, fun _ => rfl, rfl, rfl, rfl, rfl, rfl, rfl⟩
  | swinit imm | swpoll imm => simp [State.withResultsOf]

/-! ### What a command does not read -/

/-- `s` with the hidden state of `u` (spec/10_state.md R26). -/
def State.withHiddenOf (s u : State) : State :=
  { s with ckWork := u.ckWork, crcAcc := u.crcAcc, wcur := u.wcur }

/-- `s` with what no command reads taken from `u`: STATUS and the hidden state (spec/10_state.md R12, R26). -/
def State.withUnreadOf (s u : State) : State :=
  State.withHiddenOf { s with status := u.status } u

/-- From `s` the run does not depend on STATUS and the hidden state: it rewrites both, or it rewrites STATUS and hands the
hidden state on as it is. -/
def IgnoresUnread (run : State → Host.Outcome State Fault Refusal) (s : State) : Prop :=
  (∀ u, run (s.withUnreadOf u) = run s) ∨ ∀ u, run (s.withUnreadOf u) = mapNext (·.withHiddenOf u) (run s)

/-! The rewrites with `-implicitDefEqProofs` below reach the decision procedures inside the checks too, so that one `split`
decides a check in both runs. -/

@[simp] theorem State.withUnreadOf_argLen (s u : State) : (s.withUnreadOf u).argLen = s.argLen := rfl
@[simp] theorem State.withUnreadOf_argBase (s u : State) : (s.withUnreadOf u).argBase = s.argBase := rfl
@[simp] theorem State.withUnreadOf_rxLen (s u : State) : (s.withUnreadOf u).rxLen = s.rxLen := rfl
@[simp] theorem State.withUnreadOf_rxCap (s u : State) : (s.withUnreadOf u).rxCap = s.rxCap := rfl
@[simp] theorem State.withUnreadOf_payloadBuf (s u : State) : (s.withUnreadOf u).payloadBuf = s.payloadBuf := rfl
@[simp] theorem State.withUnreadOf_rxBuf (s u : State) : (s.withUnreadOf u).rxBuf = s.rxBuf := rfl
@[simp] theorem State.withUnreadOf_now (s u : State) : (s.withUnreadOf u).now = s.now := rfl
@[simp] theorem State.withUnreadOf_contact (s u : State) (c : Contact) : (s.withUnreadOf u).contact c = s.contact c := by
  cases c <;> rfl
@[simp] theorem State.withUnreadOf_pin (s u : State) (c : Contact) : (s.withUnreadOf u).pin c = s.pin c := by
  cases c <;> rfl
@[simp] theorem State.withUnreadOf_cksumCheck (s u : State) (rx : Bool) :
    (s.withUnreadOf u).cksumCheck rx = s.cksumCheck rx := rfl

/-- BUILD starts from WCUR = 0 and a checksum that `State.runChecksum_crcAcc` gives, and forgets both. -/
theorem State.buildFrame_withUnreadOf (s u : State) (type : Byte) (payload : List Byte) :
    (s.withUnreadOf u).buildFrame type payload = s.buildFrame type payload := by
  simp only [State.buildFrame, State.emitFrame_eq, State.runChecksum_crcAcc]
  rfl

theorem State.cksumRegion_withUnreadOf (s u : State) (rx : Bool) :
    (s.withUnreadOf u).cksumRegion rx = s.cksumRegion rx := by
  simp only [State.cksumRegion, State.runChecksum_crcAcc]
  rfl

theorem State.complete_setContact_withUnreadOf (s u : State) (c : Contact) (k : ContactState) (b : Bool) :
    ((s.withUnreadOf u).setContact c k).complete b = ((s.setContact c k).complete b).withHiddenOf u := by
  cases c <;> rfl

theorem execBuild_ignoresUnread (imm : Byte) (s : State) : IgnoresUnread (execBuild imm) s := by
  unfold IgnoresUnread
  simp only [execBuild, State.withUnreadOf_argLen, State.withUnreadOf_payloadBuf]
  cases buildCheck s.argLen.toNat with
  | none => exact .inl fun u => congrArg _ (s.buildFrame_withUnreadOf u _ _)
  | some e => exact .inr fun u => rfl

theorem execPresetreq_ignoresUnread (imm : Byte) (s : State) : IgnoresUnread (execPresetreq imm) s := by
  unfold IgnoresUnread execPresetreq
  split
  · exact .inr fun u => rfl
  · exact .inl fun u => congrArg _ (s.buildFrame_withUnreadOf u _ _)

theorem execCksum_ignoresUnread (imm : Byte) (s : State) : IgnoresUnread (execCksum imm) s := by
  unfold IgnoresUnread
  simp -implicitDefEqProofs only [execCksum, State.withUnreadOf_cksumCheck, State.withUnreadOf_argBase,
    State.withUnreadOf_argLen]
  split
  · exact .inr fun u => rfl
  · cases s.cksumCheck (selectsRx imm) with
    | some e => exact .inr fun u => rfl
    | none =>
      dsimp only
      split
      · exact .inl fun u => rfl
      · exact .inl fun u => congrArg _ (s.cksumRegion_withUnreadOf u _)

theorem execLocate_ignoresUnread (imm : Byte) (s : State) : IgnoresUnread (execLocate imm) s := by
  refine .inr fun u => ?_
  simp -implicitDefEqProofs only [execLocate, State.withUnreadOf_rxLen, State.withUnreadOf_rxCap,
    State.withUnreadOf_rxBuf, mapNext_next]
  split
  · rfl
  · split
    · rfl
    · cases locate s.rxBuf s.rxLen.toNat <;> rfl

theorem State.decodeField_withUnreadOf (s u : State) (imm : Byte) (k : Nat) :
    (s.withUnreadOf u).decodeField imm k = (s.decodeField imm k).withHiddenOf u := by
  simp -implicitDefEqProofs only [State.decodeField, State.withUnreadOf_rxLen, State.withUnreadOf_rxCap,
    State.withUnreadOf_rxBuf]
  split
  · rfl
  · split
    · rfl
    · cases locate s.rxBuf s.rxLen.toNat with
      | none => rfl
      | some i => dsimp only; split <;> rfl

theorem execSwinit_ignoresUnread (imm : Byte) (s : State) : IgnoresUnread (execSwinit imm) s := by
  refine .inr fun u => ?_
  simp only [execSwinit, State.withUnreadOf_pin, State.withUnreadOf_now, State.complete_setContact_withUnreadOf,
    mapNext_next]
  split <;> rfl

theorem execSwpoll_ignoresUnread (imm : Byte) (s : State) : IgnoresUnread (execSwpoll imm) s := by
  refine .inr fun u => ?_
  simp only [execSwpoll, State.withUnreadOf_pin, State.withUnreadOf_now, State.withUnreadOf_contact,
    State.complete_setContact_withUnreadOf, mapNext_next]
  split
  · rfl
  · split
    · rfl
    · split <;> rfl

/-- No command reads STATUS or what the hidden state held before it. -/
theorem exec_ignoresUnread (i : Instr) (s : State) : IgnoresUnread (exec i) s := by
  cases i with
  | build imm => exact execBuild_ignoresUnread imm s
  | presetreq imm => exact execPresetreq_ignoresUnread imm s
  | cksum imm => exact execCksum_ignoresUnread imm s
  | locate imm => exact execLocate_ignoresUnread imm s
  | decop | decpre | declen => exact .inr fun u => congrArg _ (s.decodeField_withUnreadOf u _ _)
  | swinit imm => exact execSwinit_ignoresUnread imm s
  | swpoll imm => exact execSwpoll_ignoresUnread imm s

/-- Settles O19: `exec_ignoresUnread` with the STATUS of the state itself. -/
theorem hiddenStateReachesNoResult : Obligations.HiddenStateReachesNoResult := by
  intro i s t work acc cur ht
  let u : State := { s with ckWork := work, crcAcc := acc, wcur := cur }
  rcases exec_ignoresUnread i s with hrewrites | hkeeps
  · exact ⟨t, (hrewrites u).trans ht, rfl⟩
  · have hu := hkeeps u
    rw [ht, mapNext_next] at hu
    exact ⟨t.withHiddenOf u, hu, rfl⟩

/-- The old STATUS reaches nothing: `exec_ignoresUnread` with the hidden state of the state itself. -/
theorem exec_withStatus (i : Instr) (s : State) (v : Half) : exec i { s with status := v } = exec i s := by
  rcases exec_ignoresUnread i s with hrewrites | hkeeps
  · exact hrewrites { s with status := v }
  · exact (hkeeps { s with status := v }).trans (hkeeps s).symm

/-! ### Host accesses of registers -/

section
variable {s : State} {n v : Nat} {rest : List Event}

theorem step_writeReg {r : Reg} (hin : s.inbox = .host (.writeReg n v) :: rest) (hr : Reg.ofNumber n = some r) :
    step s = State.writeReg { s with inbox := rest } r v := by
  rw [step_of_cons s _ _ hin]
  simp only [State.handle, State.hostAccess, hr]

theorem step_readReg {r : Reg} (hin : s.inbox = .host (.readReg n) :: rest) (hr : Reg.ofNumber n = some r) :
    step s = .next { s with inbox := rest, lastRead := s.readReg r } := by
  rw [step_of_cons s _ _ hin]
  simp only [State.handle, State.hostAccess, hr]
  cases r <;> rfl

theorem step_writeReg_of_none (hin : s.inbox = .host (.writeReg n v) :: rest) (hr : Reg.ofNumber n = none) :
    step s = .refused .noSuchRegister := by
  rw [step_of_cons s _ _ hin]
  simp only [State.handle, State.hostAccess, hr]

theorem step_readReg_of_none (hin : s.inbox = .host (.readReg n) :: rest) (hr : Reg.ofNumber n = none) :
    step s = .refused .noSuchRegister := by
  rw [step_of_cons s _ _ hin]
  simp only [State.handle, State.hostAccess, hr]

end

theorem ofNumber_eq_none {n : Nat} (hn : 0xF ≤ n) : Reg.ofNumber n = none := by
  obtain ⟨k, rfl⟩ := Nat.exists_eq_add_of_le' hn
  rfl

/-- CMD is at register number 0x0 only. -/
theorem eq_zero_of_ofNumber_eq_cmd {n : Nat} (hn : Reg.ofNumber n = some .cmd) : n = 0x0 := by
  unfold Reg.ofNumber at hn
  split at hn <;> simp at hn ⊢

/-- A register number from 0x5 to 0xE, and 0x1, is of a read-only register (spec/10_state.md R10, R25). -/
theorem writeReg_readOnly {n : Nat} (hn : n = 0x1 ∨ 0x5 ≤ n ∧ n ≤ 0xE) :
    ∃ r, Reg.ofNumber n = some r ∧ ∀ (s : State) (v : Nat), s.writeReg r v = .next s := by
  have hcases : n ∈ [0x1, 0x5, 0x6, 0x7, 0x8, 0x9, 0xA, 0xB, 0xC, 0xD, 0xE] := by simp; omega
  fin_cases hcases <;> exact ⟨_, rfl, fun _ _ => rfl⟩

/-- Settles O46: the register at each number, and what `State.writeReg` does to it. -/
theorem hostRegisterWrites : Obligations.HostRegisterWrites := by
  intro s n v rest hin
  have hmod : BitVec.ofNat 16 (v % 2 ^ 16) = BitVec.ofNat 16 v := BitVec.eq_of_toNat_eq (by simp)
  rw [hmod]
  refine ⟨?_, ?_, ?_, fun hn => ?_, fun hn => ?_⟩
  · rintro rfl; exact step_writeReg hin rfl
  · rintro rfl; exact step_writeReg hin rfl
  · rintro rfl; exact step_writeReg hin rfl
  · obtain ⟨r, hr, hkeeps⟩ := writeReg_readOnly hn
    exact (step_writeReg hin hr).trans (hkeeps _ _)
  · exact ⟨step_writeReg_of_none hin (ofNumber_eq_none hn), fun _ hu => step_readReg_of_none hu (ofNumber_eq_none hn)⟩

/-- Settles O9: the write of CMD stores the word, and the word decodes. -/
theorem stepRunsTheDecodedCommand : Obligations.StepRunsTheDecodedCommand := by
  intro s v rest i hin hdecode
  rw [step_writeReg (r := .cmd) hin rfl, State.writeReg, State.writeCmd, hdecode]

/-- The four fields of SW_STATE at bits 0 to 3 (spec/10_state.md R21). -/
theorem toNat_readReg_swState (s : State) :
    (s.readReg .swState).toNat =
      (if s.contact0.latch = .closed then 1 else 0) + (if s.contact1.latch = .closed then 2 else 0) +
        (if s.contact0.init then 4 else 0) + (if s.contact1.init then 8 else 0) := by
  simp only [State.readReg, State.swStateWord]
  cases s.contact0.latch <;> cases s.contact1.latch <;> cases s.contact0.init <;> cases s.contact1.init <;> rfl

/-- Settles O47: the register at each number, and the value `State.readReg` gives of it. -/
theorem hostRegisterReads : Obligations.HostRegisterReads := by
  intro s n rest hin hn
  obtain ⟨r, hr⟩ : ∃ r, Reg.ofNumber n = some r := by
    interval_cases n <;> exact ⟨_, rfl⟩
  refine ⟨s.readReg r, step_readReg hin hr, ?_⟩
  refine ⟨?cmd, ?status, ?argLen, ?argBase, ?rxLen, ?txLen, ?ckOut, ?locIdx, ?decOut, ?pos, ?swState, ?swHist0, ?swHist1,
    ?swLast0, ?swLast1⟩ <;> rintro rfl <;> cases hr
  case pos | swLast0 | swLast1 => rfl
  case swState => exact toNat_readReg_swState s
  all_goals exact BitVec.toNat_setWidth_of_le (by decide)

/-! ### STATUS -/

/-- A host write of a byte changes PAYLOAD_BUF or RX_BUF only. -/
theorem State.hostWriteByte_frame {s t : State} {b : HostBuffer} {i : Nat} {v : Byte}
    (h : s.hostWriteByte b i v = .next t) : t = { s with payloadBuf := t.payloadBuf, rxBuf := t.rxBuf } := by
  unfold State.hostWriteByte at h
  split at h
  · cases h
  · split at h <;> cases h; rfl
  · split at h <;> cases h; rfl

/-- A host read of a byte changes the model's own `lastRead` only (log entry 7). -/
theorem State.hostReadByte_frame {s t : State} {b : HostBuffer} {i : Nat} (h : s.hostReadByte b i = .next t) :
    t = { s with lastRead := t.lastRead } := by
  unfold State.hostReadByte at h
  split at h <;> cases h
  rfl

/-- A host access that changes STATUS is a write of CMD. -/
theorem State.hostAccess_changes_status {s t : State} {a : HostAccess} (h : s.hostAccess a = .next t)
    (hne : t.status ≠ s.status) : ∃ v, a = .writeReg 0x0 v := by
  cases a with
  | writeReg n v =>
    simp only [State.hostAccess] at h
    split at h
    · next r hr =>
      by_cases hcmd : r = .cmd
      · subst hcmd
        exact ⟨v, by rw [eq_zero_of_ofNumber_eq_cmd hr]⟩
      · rcases s.writeReg_cases r v hcmd with hw | hw | hw | hw <;> cases hw.symm.trans h <;> exact absurd rfl hne
    · cases h
  | readReg n =>
    simp only [State.hostAccess] at h
    split at h <;> cases h
    exact absurd rfl hne
  | writeByte b i v => exact absurd (congrArg State.status (State.hostWriteByte_frame h)) hne
  | readByte b i => exact absurd (congrArg State.status (State.hostReadByte_frame h)) hne

/-- An event that changes STATUS is a reset or a write of CMD. -/
theorem State.handle_changes_status {s t : State} {e : Event} (h : s.handle e = .next t) (hne : t.status ≠ s.status) :
    e = .reset ∨ ∃ v, e = .host (.writeReg 0x0 v) := by
  cases e with
  | host a =>
    obtain ⟨v, rfl⟩ := State.hostAccess_changes_status h hne
    exact .inr ⟨v, rfl⟩
  | pin c level => cases c <;> cases h <;> exact absurd rfl hne
  | now t => cases h; exact absurd rfl hne
  | reset => exact .inl rfl

/-- Every command ends by writing a word of STATUS, and only SWPOLL sets POLL_TAKEN. -/
theorem exec_status {i : Instr} {s t : State} (h : exec i s = .next t) :
    ∃ e taken, t.status = statusWord e taken ∧ (taken = true → ∃ imm, i = .swpoll imm) := by
  rcases exec_cases i s t h with
    ⟨imm, rfl, hbuild⟩ | ⟨imm, rfl, hpreset⟩ | ⟨imm, rfl, hcksum⟩ | ⟨imm, rfl, hlocate⟩ | ⟨imm, -, hdecode⟩ |
    ⟨imm, rfl, hswinit⟩ | ⟨imm, rfl, hswpoll⟩
  · rcases hbuild with ⟨e, -, rfl⟩ | ⟨-, rfl⟩ <;> exact ⟨_, false, rfl, nofun⟩
  · rcases hpreset with rfl | rfl <;> exact ⟨_, false, rfl, nofun⟩
  · rcases hcksum with rfl | ⟨e, rfl⟩ | ⟨-, rfl⟩ <;> exact ⟨_, false, rfl, nofun⟩
  · rcases hlocate with rfl | ⟨e, rfl⟩ | ⟨k, rfl⟩ <;> exact ⟨_, false, rfl, nofun⟩
  · rcases hdecode with rfl | ⟨e, rfl⟩ | ⟨b, rfl⟩ <;> exact ⟨_, false, rfl, nofun⟩
  · rcases hswinit with rfl | rfl <;> exact ⟨_, false, rfl, nofun⟩
  · rcases hswpoll with ⟨e, rfl⟩ | rfl | ⟨-, -, rfl⟩ <;> exact ⟨_, _, rfl, fun _ => ⟨imm, rfl⟩⟩

/-- SWPOLL sets POLL_TAKEN exactly when its IMM is legal, the contact is seeded and the gate is open
(spec/43_debouncer.md R143). -/
theorem pollTaken_execSwpoll_iff {imm : Byte} {s t : State} (h : execSwpoll imm s = .next t) :
    pollTakenOf t.status = true ↔ imm &&& 0xFE#8 = 0x00#8 ∧ (s.contact (contactOf imm)).init = true ∧
      10 ≤ (s.now - (s.contact (contactOf imm)).last).toNat := by
  rw [← gateOpen_iff]
  have hlegal : immHighNonzero imm = false ↔ imm &&& 0xFE#8 = 0x00#8 := by simp [immHighNonzero]
  rw [← hlegal]
  simp only [execSwpoll, Host.Outcome.next.injEq] at h
  split at h
  · next hillegal => simp [← h, hillegal]
  · split at h
    · next hunseeded => simp [← h, hunseeded]
    · split at h
      · next hclosed => simp [← h, hclosed]
      · next hl hi hg => simpa [← h] using ⟨by simpa using hl, by simpa using hi, by simpa using hg⟩

/-- Settles O40: the events that change STATUS, the word a command writes, and `exec_withStatus`. -/
theorem everyCommandWritesAllOfStatus : Obligations.EveryCommandWritesAllOfStatus := by
  refine ⟨fun s t e rest hin h hne => ?_, fun i s t h => ?_⟩
  · rw [step_of_cons s e rest hin] at h
    exact State.handle_changes_status h hne
  · obtain ⟨e, taken, hstatus, hswpoll⟩ := exec_status h
    refine ⟨by simp [hstatus], by simpa [hstatus] using e.code_le, ⟨fun htaken => ?_, ?_⟩,
      fun v => (exec_withStatus i s v).trans h⟩
    · obtain ⟨imm, rfl⟩ := hswpoll (by simpa [hstatus] using htaken)
      exact ⟨imm, rfl, (pollTaken_execSwpoll_iff h).mp htaken⟩
    · rintro ⟨imm, rfl, hcond⟩
      exact (pollTaken_execSwpoll_iff h).mpr hcond

/-! ### The environment -/

/-- Settles O50: `State.handle` on each event of a port. -/
theorem environmentSetsOnlyItsPorts : Obligations.EnvironmentSetsOnlyItsPorts :=
  fun s rest _ _ => ⟨step_of_cons s _ rest, step_of_cons s _ rest, step_of_cons s _ rest⟩

end Sys2Proof.Machine
end

/-! PROOFS. The buffers (spec/20_memory.md): no run overruns one, what a command reads and stores of them, and the host's
accesses of their bytes. -/

namespace Sys2Proof.Machine

/-! ### No step faults -/

/-- TX_LEN is 0 or the length of a frame of at most 120 payload bytes (spec/00_scope.md R200; spec/41_encoder.md R107). -/
theorem State.Inv.txLen_le {s : State} (hs : s.Inv) : s.txLen.toNat ≤ 134 := by
  rcases hs.tx_frame with hzero | ⟨_, payload, hlen, htx, -⟩
  · simp [hzero]
  · omega

theorem safe_next (t : State) : Safe (.next t) := nofun

theorem safe_refused (r : Refusal) : Safe (.refused r) := nofun

/-- CKSUM TX is the only command that faults, on a region within TX_LEN that leaves TX_BUF; so none does when TX_LEN bytes
lie within TX_BUF. -/
theorem safe_exec {s : State} (htx : s.txLen.toNat ≤ 1024) (i : Instr) : Safe (exec i s) := by
  intro f hfault
  obtain ⟨_, -, -, -, -, hwithin, hbeyond⟩ := (onlyCksumBeyondTxBufStops i s).2.mp ⟨f, hfault⟩
  omega

theorem State.safe_writeCmd {s : State} (htx : s.txLen.toNat ≤ 1024) (w : Half) : Safe (s.writeCmd w) := by
  unfold State.writeCmd
  split
  · exact safe_exec (s := { s with cmd := w }) htx _
  · exact safe_next _

theorem State.safe_writeReg {s : State} (htx : s.txLen.toNat ≤ 1024) (r : Reg) (v : Nat) : Safe (s.writeReg r v) := by
  by_cases hr : r = .cmd
  · subst hr; exact s.safe_writeCmd htx _
  · rcases s.writeReg_cases r v hr with hw | hw | hw | hw <;> exact hw ▸ safe_next _

theorem State.safe_hostWriteByte (s : State) (b : HostBuffer) (i : Nat) (v : Byte) : Safe (s.hostWriteByte b i v) := by
  cases b with
  | txBuf => exact safe_refused _
  | payloadBuf | rxBuf =>
    simp only [State.hostWriteByte]
    split
    · exact safe_next _
    · exact safe_refused _

theorem State.safe_hostReadByte (s : State) (b : HostBuffer) (i : Nat) : Safe (s.hostReadByte b i) := by
  unfold State.hostReadByte
  split
  · exact safe_next _
  · exact safe_refused _

theorem State.safe_hostAccess {s : State} (htx : s.txLen.toNat ≤ 1024) (a : HostAccess) : Safe (s.hostAccess a) := by
  cases a with
  | writeReg n v =>
    simp only [State.hostAccess]
    split
    · exact s.safe_writeReg htx _ _
    · exact safe_refused _
  | readReg n =>
    simp only [State.hostAccess]
    split
    · exact safe_next _
    · exact safe_refused _
  | writeByte b i v => exact s.safe_hostWriteByte b i v
  | readByte b i => exact s.safe_hostReadByte b i

theorem State.safe_handle {s : State} (htx : s.txLen.toNat ≤ 1024) (e : Event) : Safe (s.handle e) := by
  cases e with
  | host a => exact s.safe_hostAccess htx a
  | pin | now | reset => exact safe_next _

/-- Settles O5: the invariant keeps TX_LEN within TX_BUF, and then no event faults. -/
theorem noStepFaultsUnderTheInvariant : Obligations.NoStepFaultsUnderTheInvariant := by
  intro s hs
  have htx : s.txLen.toNat ≤ 1024 := hs.txLen_le.trans (by decide)
  cases hin : s.inbox with
  | nil => rw [step, hin]; exact safe_next s
  | cons e rest => rw [step_of_cons s e rest hin]; exact State.safe_handle (s := { s with inbox := rest }) htx e

/-! ### What a command reads of RX_BUF -/

/-- `s` with another RX_BUF. -/
def State.withRxBuf (s : State) (m : Memory) : State := { s with rxBuf := m }

/-! As for `State.withDebouncerOf`, the proofs below rewrite by these with `-implicitDefEqProofs`, so that one `split` decides
a check in both runs. -/

@[simp] theorem State.withRxBuf_argLen (s : State) (m : Memory) : (s.withRxBuf m).argLen = s.argLen := rfl
@[simp] theorem State.withRxBuf_argBase (s : State) (m : Memory) : (s.withRxBuf m).argBase = s.argBase := rfl
@[simp] theorem State.withRxBuf_rxLen (s : State) (m : Memory) : (s.withRxBuf m).rxLen = s.rxLen := rfl
@[simp] theorem State.withRxBuf_rxCap (s : State) (m : Memory) : (s.withRxBuf m).rxCap = s.rxCap := rfl
@[simp] theorem State.withRxBuf_payloadBuf (s : State) (m : Memory) : (s.withRxBuf m).payloadBuf = s.payloadBuf := rfl
@[simp] theorem State.withRxBuf_rxBuf (s : State) (m : Memory) : (s.withRxBuf m).rxBuf = m := rfl
@[simp] theorem State.withRxBuf_cksumCheck (s : State) (m : Memory) (rx : Bool) :
    (s.withRxBuf m).cksumCheck rx = s.cksumCheck rx := rfl

/-- Buffers that agree below `n` have the same regions that end there. -/
theorem Memory.region_congr {m m' : Memory} {n b len : Nat} (hagree : ∀ j < n, m.read j = m'.read j) (hend : b + len ≤ n) :
    m.region b len = m'.region b len :=
  List.map_congr_left fun k hk => hagree (b + k) (by have := List.mem_range.mp hk; omega)

/-- Buffers that agree below `n` have their first 0xF0 below `n` at the same index, if they have one. -/
theorem locate_congr {m m' : Memory} {n : Nat} (hagree : ∀ j < n, m.read j = m'.read j) : locate m n = locate m' n := by
  have hread : ∀ j ∈ List.range n, (m.read j == 0xF0#8) = (m'.read j == 0xF0#8) := fun j hj => by
    rw [hagree j (List.mem_range.mp hj)]
  exact List.find?_congr hread

/-- Building a frame reads nothing of RX_BUF. -/
theorem State.buildFrame_withRxBuf (s : State) (m : Memory) (type : Byte) (payload : List Byte) :
    (s.withRxBuf m).buildFrame type payload = (s.buildFrame type payload).withRxBuf m := by
  simp only [State.buildFrame, State.emitFrame_eq]
  rfl

theorem execBuild_withRxBuf (imm : Byte) (s : State) (m : Memory) :
    execBuild imm (s.withRxBuf m) = mapNext (·.withRxBuf m) (execBuild imm s) := by
  simp only [execBuild, State.withRxBuf_argLen, State.withRxBuf_payloadBuf, mapNext_next]
  cases buildCheck s.argLen.toNat with
  | none => exact congrArg _ (s.buildFrame_withRxBuf m _ _)
  | some e => rfl

theorem execPresetreq_withRxBuf (imm : Byte) (s : State) (m : Memory) :
    execPresetreq imm (s.withRxBuf m) = mapNext (·.withRxBuf m) (execPresetreq imm s) := by
  unfold execPresetreq
  split
  · rfl
  · exact congrArg _ (s.buildFrame_withRxBuf m _ _)

section
variable {s : State} {m : Memory} (hagree : ∀ j < s.rxLen.toNat, m.read j = s.rxBuf.read j)
include hagree

/-- A region that passes CKSUM's checks ends at RX_LEN or before, or is of TX_BUF. -/
theorem State.cksumRegion_withRxBuf {rx : Bool} (hcheck : s.cksumCheck rx = none) :
    (s.withRxBuf m).cksumRegion rx = (s.cksumRegion rx).withRxBuf m := by
  have hregion : ((s.withRxBuf m).cksumBuffer rx).region s.argBase.toNat s.argLen.toNat =
      (s.cksumBuffer rx).region s.argBase.toNat s.argLen.toNat := by
    cases rx with
    | false => rfl
    | true =>
      obtain ⟨-, -, hend, -⟩ := (s.cksumCheck_eq_none_iff true).mp hcheck
      exact Memory.region_congr hagree hend
  simp only [State.cksumRegion, State.withRxBuf_argBase, State.withRxBuf_argLen, hregion]
  rfl

theorem execCksum_withRxBuf (imm : Byte) :
    execCksum imm (s.withRxBuf m) = mapNext (·.withRxBuf m) (execCksum imm s) := by
  simp -implicitDefEqProofs only [execCksum, State.withRxBuf_cksumCheck, State.withRxBuf_argBase,
    State.withRxBuf_argLen]
  split
  · rfl
  · cases hcheck : s.cksumCheck (selectsRx imm) with
    | some e => rfl
    | none =>
      dsimp only
      split
      · rfl
      · exact congrArg _ (State.cksumRegion_withRxBuf hagree hcheck)

/-- LOCATE scans RX_BUF below RX_LEN only (spec/42_decoder.md R120). -/
theorem execLocate_withRxBuf (imm : Byte) :
    execLocate imm (s.withRxBuf m) = mapNext (·.withRxBuf m) (execLocate imm s) := by
  simp -implicitDefEqProofs only [execLocate, State.withRxBuf_rxLen, State.withRxBuf_rxCap, State.withRxBuf_rxBuf,
    locate_congr hagree, mapNext_next]
  split
  · rfl
  · split
    · rfl
    · cases locate s.rxBuf s.rxLen.toNat <;> rfl

/-- decode_field(k) reads the two bytes of a field only when both lie below RX_LEN (spec/42_decoder.md R123). -/
theorem State.decodeField_withRxBuf (imm : Byte) (k : Nat) :
    (s.withRxBuf m).decodeField imm k = (s.decodeField imm k).withRxBuf m := by
  simp -implicitDefEqProofs only [State.decodeField, State.withRxBuf_rxLen, State.withRxBuf_rxCap,
    State.withRxBuf_rxBuf, locate_congr hagree]
  split
  · rfl
  · split
    · rfl
    · cases locate s.rxBuf s.rxLen.toNat with
      | none => rfl
      | some i =>
        dsimp only
        split
        · rfl
        · next hfield =>
          rw [hagree (i + k) (by omega), hagree (i + k + 1) (by omega)]
          rfl

/-- A codec command does the same with any RX_BUF that agrees below RX_LEN. -/
theorem exec_withRxBuf_of_codec (i : Instr) (hi : isDebouncerCommand i = false) :
    exec i (s.withRxBuf m) = mapNext (·.withRxBuf m) (exec i s) := by
  cases i with
  | build imm => exact execBuild_withRxBuf imm s m
  | presetreq imm => exact execPresetreq_withRxBuf imm s m
  | cksum imm => exact execCksum_withRxBuf hagree imm
  | locate imm => exact execLocate_withRxBuf hagree imm
  | decop | decpre | declen => exact congrArg _ (State.decodeField_withRxBuf hagree _ _)
  | swinit | swpoll => cases hi

end

/-- A debouncer command does the same with any RX_BUF, which belongs to the other half (spec/00_scope.md R1, R2). -/
theorem exec_withRxBuf_of_debouncer {i : Instr} {s t : State} (m : Memory) (hi : isDebouncerCommand i = true)
    (ht : exec i s = .next t) : exec i (s.withRxBuf m) = .next (t.withRxBuf m) := by
  have hcodec := exec_withDebouncerOf_of_debouncer i s (s.withRxBuf m) hi
  rw [ht, mapNext_next] at hcodec
  have hframe : (s.withRxBuf m).withStatusAndDebouncerOf t = t.withRxBuf m := by
    rw [exec_frame ht]
    cases i with
    | swinit imm | swpoll imm => simp only [State.withResultsOf]; cases contactOf imm <;> rfl
    | build | presetreq | cksum | locate | decop | decpre | declen => cases hi
  exact hframe ▸ hcodec

/-- Settles O30: a codec command's reads of RX_BUF lie below RX_LEN, and a debouncer command reads nothing of it. -/
theorem noCommandReadsBeyondRxLen : Obligations.NoCommandReadsBeyondRxLen := by
  intro i s t m hagree ht
  cases hi : isDebouncerCommand i with
  | true => exact exec_withRxBuf_of_debouncer m hi ht
  | false => exact (exec_withRxBuf_of_codec hagree i hi).trans (by rw [ht, mapNext_next]; rfl)

/-! ### What a command stores -/

/-- Settles O44: the frame of every command, read for the three buffers, TX_LEN and the hidden state. -/
theorem otherCommandsStoreNothing : Obligations.OtherCommandsStoreNothing := by
  intro i s t h hother
  rw [exec_frame h]
  cases i with
  | build imm => exact absurd rfl (hother imm).1
  | presetreq imm => exact absurd rfl (hother imm).2
  | cksum imm => exact ⟨fun _ => ⟨rfl, rfl, rfl⟩, rfl, fun hcksum => absurd rfl (hcksum imm)⟩
  | locate | decop | decpre | declen => exact ⟨fun _ => ⟨rfl, rfl, rfl⟩, rfl, fun _ => ⟨rfl, rfl, rfl, rfl⟩⟩
  | swinit imm | swpoll imm => simp [State.withResultsOf]

/-! ### Host accesses of buffers -/

section
variable {s t : State} {b : HostBuffer} {i : Nat} {v : Byte} {rest : List Event}

theorem step_readByte (hin : s.inbox = .host (.readByte b i) :: rest) :
    step s = State.hostReadByte { s with inbox := rest } b i :=
  step_of_cons s _ _ hin

theorem step_writeByte (hin : s.inbox = .host (.writeByte b i v) :: rest) :
    step s = State.hostWriteByte { s with inbox := rest } b i v :=
  step_of_cons s _ _ hin

theorem State.hostReadByte_of_lt (hi : i < s.capacity b) :
    s.hostReadByte b i = .next { s with lastRead := ((s.hostBuffer b).read i).setWidth 32 } :=
  if_pos hi

theorem State.hostReadByte_of_le (hi : s.capacity b ≤ i) : s.hostReadByte b i = .refused .beyondCapacity :=
  if_neg (Nat.not_lt.mpr hi)

/-- An admitted host read gives the byte held, zero-extended (log entry 7). -/
theorem State.lastRead_hostReadByte (h : s.hostReadByte b i = .next t) :
    t.lastRead = ((s.hostBuffer b).read i).setWidth 32 := by
  unfold State.hostReadByte at h
  split at h <;> cases h
  rfl

theorem State.hostWriteByte_of_lt (hb : b ≠ .txBuf) (hi : i < s.capacity b) : ∃ t, s.hostWriteByte b i v = .next t := by
  cases b with
  | txBuf => exact absurd rfl hb
  | payloadBuf | rxBuf => exact ⟨_, if_pos hi⟩

theorem State.hostWriteByte_of_le (hb : b ≠ .txBuf) (hi : s.capacity b ≤ i) :
    s.hostWriteByte b i v = .refused .beyondCapacity := by
  cases b with
  | txBuf => exact absurd rfl hb
  | payloadBuf | rxBuf => exact if_neg (Nat.not_lt.mpr hi)

/-- An admitted host write changes one byte of one buffer. -/
theorem State.read_hostWriteByte (h : s.hostWriteByte b i v = .next t) (c : HostBuffer) (a : Nat) :
    (t.hostBuffer c).read a = if b = c ∧ a = i then v else (s.hostBuffer c).read a := by
  cases b with
  | txBuf => cases h
  | payloadBuf | rxBuf =>
    simp only [State.hostWriteByte] at h
    split at h <;> cases h
    cases c <;> simp [State.hostBuffer, Memory.read_write]

end

/-- Settles O48: the event leaves the pending list, and then the laws of `State.hostReadByte` and `State.hostWriteByte`. -/
theorem hostBufferAccesses : Obligations.HostBufferAccesses := by
  intro s b i v rest cap held
  have hcap : cap = State.capacity { s with inbox := rest } b := by cases b <;> rfl
  have hheld : held = State.hostBuffer { s with inbox := rest } b := by cases b <;> rfl
  rw [hcap, hheld, BitVec.ofNat_toNat]
  refine ⟨fun hin => ?_, fun hin => ?_⟩
  · rw [step_readByte hin]
    exact ⟨State.hostReadByte_of_le, State.hostReadByte_of_lt⟩
  · rw [step_writeByte hin]
    refine ⟨?_, State.hostWriteByte_of_le, fun hb hi => ?_⟩
    · rintro rfl; rfl
    · obtain ⟨t, ht⟩ := State.hostWriteByte_of_lt hb hi
      exact ⟨t, ht, State.hostWriteByte_frame ht, State.read_hostWriteByte ht .payloadBuf,
        State.read_hostWriteByte ht .rxBuf⟩

/-- Settles O49: the write leaves the read pending, and the read gives the byte that the write stored. -/
theorem hostReadsBackWhatItWrote : Obligations.HostReadsBackWhatItWrote := by
  intro s t u b i v rest hin hwrite hread
  rw [step_writeByte hin] at hwrite
  have hpending : t.inbox = .host (.readByte b i) :: rest := congrArg State.inbox (State.hostWriteByte_frame hwrite)
  rw [step_readByte hpending] at hread
  have hstored : (t.hostBuffer b).read i = v := by simp [State.read_hostWriteByte hwrite]
  have hvalue : u.lastRead = v.setWidth 32 := (State.lastRead_hostReadByte hread).trans (congrArg _ hstored)
  rw [hvalue]
  exact BitVec.toNat_setWidth_of_le (by decide)

end Sys2Proof.Machine

/-! PROOFS. The encoding (spec/30_encoding.md): the command words, what an illegal word or an ill-formed command does, and the
frame that BUILD writes. -/

namespace Sys2Proof

/-! ### Command words -/

theorem toNat_opcOf (w : Half) : (opcOf w).toNat = w.toNat / 256 := by
  have hlt : w.toNat / 256 < 256 := by omega
  simpa [opcOf, Nat.shiftRight_eq_div_pow] using hlt

theorem toNat_immOf (w : Half) : (immOf w).toNat = w.toNat % 256 := by
  simp [immOf]

/-- R62 lists one command per OPC. -/
theorem instrOf_eq_some_iff (opc imm : Byte) (i : Instr) : instrOf opc imm = some i ↔ i.opc = opc ∧ i.imm = imm := by
  constructor
  · intro h
    unfold instrOf at h
    split_ifs at h <;> cases h <;> exact ⟨Eq.symm ‹opc = _›, rfl⟩
  · rintro ⟨rfl, rfl⟩
    cases i <;> rfl

/-- The well-formed commands are those whose IMM has no bit of the command's mask. -/
theorem Instr.wellFormed_iff (i : Instr) : i.wellFormed = true ↔ i.imm &&& i.immMask = 0x00#8 := by
  cases i with
  | build m => simp [Instr.wellFormed, Instr.imm, Instr.immMask]
  | presetreq m | cksum m | locate m | decop m | decpre m | declen m | swinit m | swpoll m => revert m; decide

/-- A word has no bits but those of its two fields (R61). -/
theorem eq_iff_fields (v w : Half) : v = w ↔ opcOf v = opcOf w ∧ immOf v = immOf w := by
  constructor
  · rintro rfl; exact ⟨rfl, rfl⟩
  · rintro ⟨hopc, himm⟩
    rw [← opcOf_append_immOf v, hopc, himm, opcOf_append_immOf]

theorem encode_eq_iff (i : Instr) (w : Half) : encode i = w ↔ i.opc = opcOf w ∧ i.imm = immOf w := by
  obtain ⟨hopc, himm⟩ := Laws.EncodedFields.fields i
  rw [eq_iff_fields, hopc, himm]

/-- All that the decoder accepts: a word decodes to a command exactly when the command is well formed and the word is its
word. -/
theorem decode_eq_ok_iff (w : Half) (i : Instr) : decode w = .ok i ↔ i.wellFormed = true ∧ encode i = w := by
  rw [encode_eq_iff, ← instrOf_eq_some_iff, i.wellFormed_iff, decode]
  split
  · next hnone => simp [hnone]
  · next j hsome =>
    rw [hsome, Option.some_inj]
    split
    · next hzero =>
      constructor
      · intro h; cases h; exact ⟨hzero, rfl⟩
      · rintro ⟨-, rfl⟩; rfl
    · next hset =>
      constructor
      · intro h; cases h
      · rintro ⟨hzero, rfl⟩; exact absurd hzero hset

/-- Settles O7: both directions of `decode_eq_ok_iff`. -/
theorem decodeAndEncodeAgree : Obligations.DecodeAndEncodeAgree :=
  ⟨fun i hi => (decode_eq_ok_iff _ i).mpr ⟨hi, rfl⟩, fun w i => (decode_eq_ok_iff w i).mp⟩

/-- Settles O6: each word is the word of its command, which is well formed. -/
theorem specWordsDecodeToTheirCommands : Obligations.SpecWordsDecodeToTheirCommands := by
  unfold Obligations.SpecWordsDecodeToTheirCommands
  simp only [decode_eq_ok_iff]
  decide

/-! ### The opcode table -/

/-- The rows of spec/opcode_table.json: match, mask, and the command as a function of its IMM. -/
def opcodeTable : List (Half × Half × (Byte → Instr)) :=
  [(0x0100#16, 0xFF00#16, Instr.build), (0x0200#16, 0xFFFF#16, Instr.presetreq), (0x0300#16, 0xFFFE#16, Instr.cksum),
    (0x0400#16, 0xFFFF#16, Instr.locate), (0x0500#16, 0xFFFF#16, Instr.decop), (0x0600#16, 0xFFFF#16, Instr.decpre),
    (0x0700#16, 0xFFFF#16, Instr.declen), (0x1000#16, 0xFFFE#16, Instr.swinit), (0x1100#16, 0xFFFE#16, Instr.swpoll)]

/-- Every command has a row of the table. -/
theorem exists_opcodeTable_row (i : Instr) : ∃ row ∈ opcodeTable, i = row.2.2 i.imm := by
  cases i <;> simp [opcodeTable, Instr.imm]

/-- A row's match has the OPC of its command and IMM = 0, and its mask covers OPC and the command's required-zero bits. -/
theorem opcodeTable_row_fields : ∀ row ∈ opcodeTable, ∀ m : Byte,
    opcOf row.1 = (row.2.2 m).opc ∧ immOf row.1 = 0x00#8 ∧
      opcOf row.2.1 = 0xFF#8 ∧ immOf row.2.1 = (row.2.2 m).immMask ∧ (row.2.2 m).imm = m := by
  intro row hrow m
  fin_cases hrow <;> exact ⟨rfl, rfl, rfl, rfl, rfl⟩

@[simp] theorem opcOf_and (v w : Half) : opcOf (v &&& w) = opcOf v &&& opcOf w :=
  BitVec.extractLsb'_and

@[simp] theorem immOf_and (v w : Half) : immOf (v &&& w) = immOf v &&& immOf w :=
  BitVec.extractLsb'_and

/-- A word matches a row exactly when it decodes to the row's command with the word's IMM. -/
theorem matches_row_iff_decode (w : Half) {row : Half × Half × (Byte → Instr)} (hrow : row ∈ opcodeTable) :
    w &&& row.2.1 = row.1 ↔ decode w = .ok (row.2.2 (immOf w)) := by
  obtain ⟨hmatchOpc, hmatchImm, hmaskOpc, hmaskImm, himm⟩ := opcodeTable_row_fields row hrow (immOf w)
  have hall : opcOf w &&& 0xFF#8 = opcOf w := BitVec.and_allOnes
  rw [eq_iff_fields, opcOf_and, immOf_and, hmatchOpc, hmatchImm, hmaskOpc, hmaskImm, hall,
    decode_eq_ok_iff, encode_eq_iff, Instr.wellFormed_iff, himm]
  tauto

/-- Settles O8: the row is the command's own, and `matches_row_iff_decode` says what it matches. -/
theorem decodeMatchesTheOpcodeTable : Obligations.DecodeMatchesTheOpcodeTable := by
  intro w i
  have himm : BitVec.ofNat 8 (w.toNat % 256) = immOf w := BitVec.eq_of_toNat_eq (by simp [toNat_immOf])
  rw [himm]
  change _ ↔ ∃ row ∈ opcodeTable, _
  constructor
  · intro hdecode
    obtain ⟨-, hfield⟩ := (encode_eq_iff i w).mp ((decode_eq_ok_iff w i).mp hdecode).2
    obtain ⟨row, hrow, hi⟩ := exists_opcodeTable_row i
    rw [hfield] at hi
    exact ⟨row, hrow, (matches_row_iff_decode w hrow).mpr (hi ▸ hdecode), hi⟩
  · rintro ⟨row, hrow, hword, rfl⟩
    exact (matches_row_iff_decode w hrow).mp hword

end Sys2Proof

namespace Sys2Proof.Machine

/-! ### Illegal words and ill-formed commands -/

/-- The fields of an illegal word (R64): an OPC that R62 does not list, or an IMM with a bit that R63 requires to be 0. -/
def IllegalFields (opc imm : Nat) : Prop :=
  opc = 0x00 ∨ (0x08 ≤ opc ∧ opc ≤ 0x0F) ∨ 0x12 ≤ opc ∨
    ((opc = 0x02 ∨ opc = 0x04 ∨ opc = 0x05 ∨ opc = 0x06 ∨ opc = 0x07) ∧ imm ≠ 0) ∨
    ((opc = 0x03 ∨ opc = 0x10 ∨ opc = 0x11) ∧ imm / 2 ≠ 0)

/-- No well-formed command has the fields of an illegal word. -/
theorem not_illegalFields_of_wellFormed {i : Instr} (hi : i.wellFormed = true) :
    ¬ IllegalFields i.opc.toNat i.imm.toNat := by
  cases i with
  | build m => simp [IllegalFields, Instr.opc]
  | presetreq m | locate m | decop m | decpre m | declen m =>
    obtain rfl : m = 0x00#8 := by simpa [Instr.wellFormed] using hi
    simp [IllegalFields, Instr.opc, Instr.imm]
  | cksum m | swinit m | swpoll m =>
    have hm : m = 0x00#8 ∨ m = 0x01#8 := by simpa [Instr.wellFormed] using hi
    rcases hm with rfl | rfl <;> simp [IllegalFields, Instr.opc, Instr.imm]

theorem decode_eq_error_of_illegalFields {w : Half} (hw : IllegalFields (opcOf w).toNat (immOf w).toNat) :
    ∃ e, decode w = .error e := by
  cases hdecode : decode w with
  | error e => exact ⟨e, rfl⟩
  | ok i =>
    obtain ⟨hi, hword⟩ := (decode_eq_ok_iff w i).mp hdecode
    obtain ⟨hopc, himm⟩ := (encode_eq_iff i w).mp hword
    rw [← hopc, ← himm] at hw
    exact absurd hw (not_illegalFields_of_wellFormed hi)

/-- Settles O10: the write of CMD stores the word, and the word decodes to an error, which is raised. -/
theorem illegalWordWritesStatusOnly : Obligations.IllegalWordWritesStatusOnly := by
  intro s v rest hin hfields
  have hopc : (opcOf (BitVec.ofNat 16 v)).toNat = v % 65536 / 256 := by simp [toNat_opcOf]
  have himm : (immOf (BitVec.ofNat 16 v)).toNat = v % 256 := by simp [toNat_immOf]
  have hillegal : IllegalFields (opcOf (BitVec.ofNat 16 v)).toNat (immOf (BitVec.ofNat 16 v)).toNat := by
    rw [hopc, himm]; exact hfields
  obtain ⟨e, hdecode⟩ := decode_eq_error_of_illegalFields hillegal
  rw [step_writeReg (r := .cmd) hin rfl, State.writeReg, State.writeCmd, hdecode]
  rfl

theorem immHighNonzero_eq (m : Byte) : immHighNonzero m = !(m == 0x00#8 || m == 0x01#8) := by
  revert m; decide

/-- Every command begins with the check of its required-zero IMM bits (R63; spec/60_exceptions.md R162). -/
theorem exec_of_illFormed (i : Instr) (s : State) (hi : i.wellFormed = false) : exec i s = .next (s.raise .illegal) := by
  have hzero {m : Byte} (hm : (m == 0x00#8) = false) : immNonzero m = true := by simp [immNonzero, bne, hm]
  have hhigh {m : Byte} (hm : (m == 0x00#8 || m == 0x01#8) = false) : immHighNonzero m = true := by
    rw [immHighNonzero_eq, hm]; rfl
  cases i with
  | build m => cases hi
  | presetreq m => simp [exec, execPresetreq, hzero hi]
  | cksum m => simp [exec, execCksum, hhigh hi]
  | locate m => simp [exec, execLocate, hzero hi]
  | decop m => simp [exec, execDecop, State.decodeField, hzero hi]
  | decpre m => simp [exec, execDecpre, State.decodeField, hzero hi]
  | declen m => simp [exec, execDeclen, State.decodeField, hzero hi]
  | swinit m => simp [exec, execSwinit, hhigh hi]
  | swpoll m => simp [exec, execSwpoll, hhigh hi]

/-- Settles O11: `exec_of_illFormed`, with the word of STATUS that ERR_ILLEGAL gives. -/
theorem illFormedCommandWritesStatusOnly : Obligations.IllFormedCommandWritesStatusOnly :=
  exec_of_illFormed

/-! ### The frame of BUILD -/

/-- The nibble split as division. -/
theorem split_eq (v : Byte) : split v = (BitVec.ofNat 8 (v.toNat / 16), BitVec.ofNat 8 (v.toNat % 16)) := by
  revert v; decide

theorem split_ofNat {n : Nat} (hn : n < 256) :
    split (BitVec.ofNat 8 n) = (BitVec.ofNat 8 (n / 16), BitVec.ofNat 8 (n % 16)) := by
  rw [split_eq, BitVec.toNat_ofNat, Nat.mod_eq_of_lt hn]

theorem execBuild_of_le {imm : Byte} {s : State} (hlen : s.argLen.toNat ≤ 120) :
    execBuild imm s = .next (s.buildFrame imm (s.payloadBuf.region 0 s.argLen.toNat)) := by
  rw [execBuild, (buildCheck_eq_none_iff _).mpr hlen]

/-- Settles O20: `State.read_buildFrame` gives the bytes of the model's `frame`, whose two nibble splits are written as
divisions, and `State.buildFrame_frame` gives the rest of the state. -/
theorem buildWritesTheFrame : Obligations.BuildWritesTheFrame := by
  intro imm s hlen
  refine ⟨_, execBuild_of_le hlen, fun i => ?_, ?_⟩
  · have hsplit := split_ofNat (show s.argLen.toNat < 256 by omega)
    simp only [State.read_buildFrame, frame, frameCrc, Memory.region, Nat.zero_add, List.length_map, List.length_range,
      hsplit, split_eq (crc8 _)]
  · rw [State.buildFrame_frame, Memory.length_region]
    rfl

end Sys2Proof.Machine

/-! PROOFS. The checksum (spec/40_checksum.md): what the accumulator and the packer distinguish, and what CKSUM answers. -/

namespace Sys2Proof.Machine

/-! ### The accumulator -/

/-- The bit step backwards. The polynomial's bit 0 is set, so bit 0 of a result is the bit 7 that the step shifted out. -/
def crcBitBack (c : Byte) : Byte :=
  if c.getLsbD 0 then ((c ^^^ Config.crcPoly) >>> 1) ||| 0x80#8 else c >>> 1

theorem crcBitBack_crcBit (c : Byte) : crcBitBack (crcBit c) = c := by
  revert c; decide

theorem crcBits_injective (n : Nat) : Function.Injective (crcBits n) := by
  induction n with
  | zero => exact Function.injective_id
  | succ n ih => exact ih.comp (Function.LeftInverse.injective crcBitBack_crcBit)

/-- A byte step keeps accumulators apart, and `crcByte_right_inj` says the same of the bytes (R83). -/
theorem crcByte_left_inj {c c' b : Byte} : crcByte c b = crcByte c' b ↔ c = c' := by
  simp [crcByte, (crcBits_injective 8).eq_iff]

theorem crcByte_right_inj {c b b' : Byte} : crcByte c b = crcByte c b' ↔ b = b' := by
  simp [crcByte, (crcBits_injective 8).eq_iff]

theorem crc8_concat (q : List Byte) (b : Byte) : crc8 (q ++ [b]) = crcByte (crc8 q) b := by
  simp [crc8]

/-- Two lists of one length that differ in exactly one byte have different CRCs: from that byte on the accumulators differ. -/
theorem crc8_map_range_ne {f g : Nat → Byte} {i m : Nat} (hne : f i ≠ g i) (hsame : ∀ k, k ≠ i → f k = g k) (hi : i < m) :
    crc8 ((List.range m).map f) ≠ crc8 ((List.range m).map g) := by
  induction m with
  | zero => omega
  | succ m ih =>
    simp only [List.range_succ, List.map_append, List.map_cons, List.map_nil, crc8_concat]
    by_cases him : i = m
    · have hprefix : (List.range m).map f = (List.range m).map g :=
        List.map_congr_left fun k hk => hsame k (by rw [List.mem_range] at hk; omega)
      rw [hprefix, ← him]
      exact mt crcByte_right_inj.mp hne
    · rw [hsame m (Ne.symm him)]
      exact mt crcByte_left_inj.mp (ih (by omega))

/-! ### The packer -/

theorem lowNibble_eq_iff {a b : Byte} : lowNibble a = lowNibble b ↔ a.toNat % 16 = b.toNat % 16 := by
  simp [lowNibble, ← BitVec.toNat_inj]

theorem highNibble_join (a b : Byte) : highNibble (join a b) = lowNibble a :=
  BitVec.extractLsb'_append_eq_left

theorem lowNibble_join (a b : Byte) : lowNibble (join a b) = lowNibble b :=
  BitVec.extractLsb'_append_eq_right

/-- The nibble join takes the low nibble of each byte, and both can be read back (spec/42_decoder.md R121). -/
theorem join_eq_join_iff {a b a' b' : Byte} :
    join a b = join a' b' ↔ lowNibble a = lowNibble a' ∧ lowNibble b = lowNibble b' := by
  constructor
  · intro h
    exact ⟨by rw [← highNibble_join a b, h, highNibble_join], by rw [← lowNibble_join a b, h, lowNibble_join]⟩
  · rintro ⟨hfirst, hsecond⟩
    rw [join, join, hfirst, hsecond]

theorem lowNibble_flip_ne (b : Byte) {j : Nat} (hj : j < 4) : lowNibble (b ^^^ BitVec.ofNat 8 (2 ^ j)) ≠ lowNibble b := by
  have hflip : ∀ (j : Fin 4) (b : Byte), lowNibble (b ^^^ BitVec.ofNat 8 (2 ^ j.val)) ≠ lowNibble b := by decide
  exact hflip ⟨j, hj⟩ b

/-- Reconstructed byte `i` of a region: the packed pair `i` of its nibble-source bytes, which begin at byte 3 (R81, R82). -/
def reconstructed (r : List Byte) (i : Nat) : Byte :=
  join (r.getD (3 + 2 * i) 0x00#8) (r.getD (3 + (2 * i + 1)) 0x00#8)

theorem pack_eq_map_range (src : List Byte) :
    pack src = (List.range (src.length / 2)).map fun i => join (src.getD (2 * i) 0x00#8) (src.getD (2 * i + 1) 0x00#8) := by
  induction src using pack.induct with
  | case1 a b rest ih =>
    have hlen : (a :: b :: rest).length / 2 = rest.length / 2 + 1 := by simp only [List.length_cons]; omega
    rw [pack_cons_cons, ih, hlen, List.range_succ_eq_map, List.map_cons, List.map_map]
    rfl
  | case2 a => simp
  | case3 => rfl

theorem pack_nibbleSource (r : List Byte) :
    pack (nibbleSource r) = (List.range ((r.length - 4) / 2)).map (reconstructed r) := by
  have hsrc : ∀ k < r.length - 4, (nibbleSource r).getD k 0x00#8 = r.getD (3 + k) 0x00#8 := fun k hk => by
    simp [nibbleSource, List.getD_eq_getElem?_getD, hk]
  rw [pack_eq_map_range, length_nibbleSource]
  refine List.map_congr_left fun i hi => ?_
  rw [List.mem_range] at hi
  rw [reconstructed, hsrc _ (by omega), hsrc _ (by omega)]

/-! ### What the checksum depends on -/

theorem checksum_of_length_le {r : List Byte} (h4 : 4 ≤ r.length) (h132 : r.length ≤ 132) :
    checksum r = .ok (crc8 (pack (nibbleSource r))) := by
  rw [checksum, if_neg (by omega), if_neg (by simp; omega)]

theorem checksum_congr {r r' : List Byte} (hlen : r.length = r'.length)
    (hpack : pack (nibbleSource r) = pack (nibbleSource r')) : checksum r = checksum r' := by
  rw [checksum, checksum, hlen, hpack]

/-- Settles O17: the reconstructed bytes are joins of the low nibbles on which the regions agree. -/
theorem checksumReadsOnlyCoveredLowNibbles : Obligations.ChecksumReadsOnlyCoveredLowNibbles := by
  intro r r' hlen hagree
  refine checksum_congr hlen ?_
  rw [pack_nibbleSource, pack_nibbleSource, ← hlen]
  refine List.map_congr_left fun i hi => ?_
  rw [List.mem_range] at hi
  exact join_eq_join_iff.mpr ⟨lowNibble_eq_iff.mpr (hagree _ (by omega)), lowNibble_eq_iff.mpr (hagree _ (by omega))⟩

theorem getD_set_of_ne (r : List Byte) {i k : Nat} (v : Byte) (hne : i ≠ k) :
    (r.set i v).getD k 0x00#8 = r.getD k 0x00#8 := by
  simp [List.getD_eq_getElem?_getD, hne]

/-- A write to nibble-source byte `k` reaches reconstructed byte `k / 2` only. -/
theorem reconstructed_set_of_ne (r : List Byte) {k i : Nat} (v : Byte) (hi : i ≠ k / 2) :
    reconstructed (r.set (3 + k) v) i = reconstructed r i := by
  rw [reconstructed, getD_set_of_ne r v (by omega), getD_set_of_ne r v (by omega), reconstructed]

/-- A write that changes the low nibble of nibble-source byte `k` changes reconstructed byte `k / 2`. -/
theorem reconstructed_set_ne {r : List Byte} {k : Nat} {v : Byte} (hk : 3 + k < r.length)
    (hv : lowNibble v ≠ lowNibble (r.getD (3 + k) 0x00#8)) :
    reconstructed (r.set (3 + k) v) (k / 2) ≠ reconstructed r (k / 2) := by
  intro heq
  obtain ⟨hfirst, hsecond⟩ := join_eq_join_iff.mp heq
  have hwritten : (r.set (3 + k) v).getD (3 + k) 0x00#8 = v := by simp [List.getD_eq_getElem?_getD, hk]
  apply hv
  rcases (by omega : 2 * (k / 2) = k ∨ 2 * (k / 2) + 1 = k) with heven | hodd
  · rwa [heven, hwritten] at hfirst
  · rwa [hodd, hwritten] at hsecond

/-- Settles O18: the flip changes one reconstructed byte, and the accumulator tells lists apart that differ in one byte. -/
theorem coveredBitFlipChangesTheChecksum : Obligations.CoveredBitFlipChangesTheChecksum := by
  intro r k j hlen hk hj
  refine ⟨_, _, checksum_of_length_le (by omega) hlen,
    checksum_of_length_le (by rw [List.length_set]; omega) (by rwa [List.length_set]), ?_⟩
  rw [pack_nibbleSource, pack_nibbleSource, List.length_set]
  have hflipped := reconstructed_set_ne (by omega) (lowNibble_flip_ne (r.getD (3 + k) 0x00#8) hj)
  exact crc8_map_range_ne hflipped.symm (fun i hi => (reconstructed_set_of_ne r _ hi).symm) (by omega)

/-! ### CKSUM -/

/-- CKSUM's checks as R86's two clauses: the malformed regions, then the bound (R84; spec/60_exceptions.md R163). -/
theorem State.cksumCheck_eq (s : State) (rx : Bool) :
    s.cksumCheck rx =
      if (rx = true ∧ s.rxLen.toNat > s.rxCap.toNat) ∨ s.argLen.toNat < 4 ∨
          s.argBase.toNat + s.argLen.toNat > s.cksumLimit rx then some .region
      else if s.argLen.toNat > 132 then some .ckBound else none := by
  have hbound : s.argLen.toNat - 4 > Config.ckSrcMax ↔ s.argLen.toNat > 132 := by rw [ckSrcMax_eq]; omega
  simp only [State.cksumCheck, hbound, ite_or]

/-- CKSUM's first check, on the required-zero bits of IMM (spec/30_encoding.md R63). -/
theorem immHighNonzero_eq_false_iff (imm : Byte) : immHighNonzero imm = false ↔ imm &&& 0xFE#8 = 0x00#8 := by
  simp [immHighNonzero]

theorem execCksum_of_check_eq_some {imm : Byte} {s : State} {e : Err} (himm : imm &&& 0xFE#8 = 0x00#8)
    (hcheck : s.cksumCheck (selectsRx imm) = some e) : execCksum imm s = .next (s.failCksum e) := by
  simp [execCksum, (immHighNonzero_eq_false_iff imm).mpr himm, hcheck]

theorem execCksum_of_check_eq_none {imm : Byte} {s : State} (himm : imm &&& 0xFE#8 = 0x00#8)
    (hcheck : s.cksumCheck (selectsRx imm) = none)
    (htx : selectsRx imm = false → s.argBase.toNat + s.argLen.toNat ≤ 1024) :
    execCksum imm s = .next (s.cksumRegion (selectsRx imm)) := by
  have hwithin : ¬ (selectsRx imm = false ∧ s.argBase.toNat + s.argLen.toNat > Config.txCap) :=
    fun ⟨hsel, hpast⟩ => absurd (htx hsel) (Nat.not_le.mpr hpast)
  simp [execCksum, (immHighNonzero_eq_false_iff imm).mpr himm, hcheck, hwithin]

theorem State.cksumRegion_eq (s : State) (rx : Bool) :
    s.cksumRegion rx = { s with
      ckOut := crc8 (pack ((List.range (s.argLen.toNat - 4)).map fun k =>
        (s.cksumBuffer rx).read (s.argBase.toNat + 3 + k)))
      status := 0x0000#16
      ckWork := Memory.unspecified s.draws
      crcAcc := Config.freeCrcAcc s.draws
      wcur := Config.freeWcur s.draws
      draws := s.draws + 1 } := by
  rw [← nibbleSource_region, ← State.runChecksum_crcAcc s]
  rfl

/-- Settles O14: `State.cksumCheck_eq` gives the order of the errors, and `State.failCksum` writes the two results. -/
theorem cksumErrorsInOrder : Obligations.CksumErrorsInOrder := by
  intro imm s rx b L malformed himm
  have hcheck := s.cksumCheck_eq (selectsRx imm)
  refine ⟨fun hbad => ?_, fun hgood hlong => ?_⟩
  · exact execCksum_of_check_eq_some himm (hcheck.trans (if_pos hbad))
  · exact execCksum_of_check_eq_some himm (hcheck.trans ((if_neg hgood).trans (if_pos hlong)))

/-- Settles O13: the hypotheses are CKSUM's checks, and `State.cksumRegion_eq` is the state it then leaves. -/
theorem cksumWritesTheRegionChecksum : Obligations.CksumWritesTheRegionChecksum := by
  intro imm s rx b L buf himm hrx htx h4 h132
  have hlimit : b + L ≤ s.cksumLimit (selectsRx imm) := by
    cases hsel : selectsRx imm with
    | false => exact (htx hsel).1
    | true => exact (hrx hsel).2
  have hcheck := (s.cksumCheck_eq_none_iff (selectsRx imm)).mpr ⟨fun hsel => (hrx hsel).1, h4, hlimit, h132⟩
  refine ⟨_, execCksum_of_check_eq_none himm hcheck fun hsel => (htx hsel).2, ?_⟩
  rw [State.cksumRegion_eq]
  rfl

/-! ### Worked values -/

/-- Settles O16: the model's functions evaluated on the spec's bytes. -/
theorem checksumWorkedValues : Obligations.ChecksumWorkedValues :=
  ⟨by decide, by decide, by decide, by decide, by decide +kernel, by decide +kernel⟩

end Sys2Proof.Machine

/-! PROOFS. The frame encoder (spec/41_encoder.md): the nibble split and its inverse, what BUILD answers for every length, the
fixed frame of PRESETREQ, and the checksum of a built frame. -/

namespace Sys2Proof.Machine

/-! ### Nibbles -/

/-- The nibble join as arithmetic (spec/42_decoder.md R121). -/
theorem toNat_join (a b : Byte) : (join a b).toNat = a.toNat % 16 * 16 + b.toNat % 16 := by
  have hlow : b.toNat % 16 < 2 ^ 4 := by omega
  simp only [join, lowNibble, BitVec.toNat_append, BitVec.extractLsb'_toNat, Nat.shiftRight_zero]
  exact (Nat.shiftLeft_add_eq_or_of_lt hlow _).symm.trans (by rw [Nat.shiftLeft_eq])

theorem toNat_split (v : Byte) : (split v).1.toNat = v.toNat / 16 ∧ (split v).2.toNat = v.toNat % 16 := by
  simp only [split_eq, BitVec.toNat_ofNat]
  omega

@[simp] theorem join_split (v : Byte) : join (split v).1 (split v).2 = v := by
  obtain ⟨hhigh, hlow⟩ := toNat_split v
  apply BitVec.eq_of_toNat_eq
  rw [toNat_join, hhigh, hlow]
  omega

/-- Settles O28: `toNat_split`, `toNat_join` and `join_split`. -/
theorem splitAndJoinNibbles : Obligations.SplitAndJoinNibbles :=
  ⟨toNat_split, toNat_join, join_split⟩

/-! ### The limits of BUILD -/

/-- BUILD's checks as limits on the payload length, the widest first (R103, R107). -/
theorem buildCheck_eq (len : Nat) :
    buildCheck len =
      if 1010 < len then some .capacity
      else if 255 < len then some .lenField
      else if 120 < len then some .ckBound
      else none := by
  have hcap : 14 + len > Config.txCap ↔ 1010 < len := by rw [txCap_eq]; omega
  have hbound : 8 + len > Config.ckSrcMax ↔ 120 < len := by rw [ckSrcMax_eq]; omega
  simp only [buildCheck, hcap, hbound, lenMax_eq, gt_iff_lt]

theorem buildCheck_ne_ok (len : Nat) : buildCheck len ≠ some .ok := by
  rw [buildCheck_eq]
  split_ifs <;> simp

/-- BUILD answers a next state, and ERR there is the code of the first check that fails, or OK. -/
theorem execBuild_err (imm : Byte) (s : State) :
    ∃ t, execBuild imm s = .next t ∧ errOf t.status = ((buildCheck s.argLen.toNat).getD .ok).code := by
  rcases execBuild_cases imm s with ⟨e, hcheck, hnext⟩ | ⟨hlen, hnext⟩
  · exact ⟨_, hnext, by rw [hcheck]; exact errOf_statusWord e false⟩
  · exact ⟨_, hnext, by rw [(buildCheck_eq_none_iff _).mpr hlen]; exact errOf_statusWord .ok false⟩

/-- Settles O22: `buildCheck_eq` gives the error of each range of lengths, and OK is the code of none of them. -/
theorem buildSucceedsExactlyUpTo120 : Obligations.BuildSucceedsExactlyUpTo120 := by
  intro imm s L
  obtain ⟨t, hnext, herr⟩ := execBuild_err imm s
  refine ⟨t, hnext, ?_⟩
  rw [herr, buildCheck_eq]
  split_ifs <;> (simp [Err.code]; omega)

/-- Settles O23: above 120 BUILD takes its failing branch, and `State.failBuild` names the fields it writes. -/
theorem failedBuildLeavesNoFrame : Obligations.FailedBuildLeavesNoFrame := by
  intro imm s hlong
  rcases execBuild_cases imm s with ⟨e, -, hnext⟩ | ⟨hlen, -⟩
  · exact ⟨_, hnext, fun i => Memory.read_unspecified s.draws i, rfl⟩
  · omega

/-! ### The frame of PRESETREQ -/

/-- The checksum of the preset request is 0x07, so its frame is R106's sixteen bytes. -/
theorem frame_presetreq :
    frame 0x02#8 [0x04#8, 0x03#8] =
      [0x80#8, 0x80#8, 0xF0#8, 0x00#8, 0x07#8, 0x00#8, 0x01#8, 0x00#8, 0x00#8, 0x00#8, 0x02#8, 0x01#8, 0x02#8,
        0x04#8, 0x03#8, 0xF7#8] := by
  decide +kernel

/-- Settles O21: with IMM = 0 the command is `State.buildFrame` on constants, and any other IMM is ill-formed. -/
theorem presetreqWritesItsFrame : Obligations.PresetreqWritesItsFrame := by
  refine ⟨(decode_eq_ok_iff _ _).mpr (by decide), fun imm s => ⟨fun himm => ?_, ?_⟩⟩
  · exact exec_of_illFormed (.presetreq imm) s (by simpa [Instr.wellFormed] using himm)
  · rintro rfl
    refine ⟨s.buildFrame 0x02#8 [0x04#8, 0x03#8], rfl, fun i => ?_, ?_⟩
    · rw [State.read_buildFrame, frame_presetreq]
    · exact s.buildFrame_results 0x00#8 0x02#8 [0x04#8, 0x03#8]

/-! ### The checksum of a built frame -/

/-- The nibble-source bytes of a finished frame from its 0xF0 on: the checksum field is not among them (R108). -/
theorem nibbleSource_frame (type : Byte) (payload : List Byte) :
    nibbleSource ((frame type payload).drop 2) =
      [0x00#8, 0x01#8, 0x00#8, 0x00#8, (split (BitVec.ofNat 8 payload.length)).1,
        (split (BitVec.ofNat 8 payload.length)).2, 0x01#8, type] ++ payload := by
  simp [nibbleSource, frame]

theorem State.join_field_buildFrame (s : State) (type : Byte) (payload : List Byte) :
    join ((s.buildFrame type payload).txBuf.read 3) ((s.buildFrame type payload).txBuf.read 4) = frameCrc type payload := by
  rw [State.read_buildFrame, State.read_buildFrame]
  exact join_split _

theorem State.region_buildFrame (s : State) (type : Byte) (payload : List Byte) :
    (s.buildFrame type payload).txBuf.region 2 (12 + payload.length) = (frame type payload).drop 2 := by
  have hlen : (frame type payload).length - 2 = 12 + payload.length := by rw [length_frame]; omega
  rw [← hlen]
  exact Memory.region_eq_drop _ _ 2 fun i _ => s.read_buildFrame type payload i

/-- The CRC over TX_BUF[2..TX_LEN-1] after a build is the one in the checksum field (R108). -/
theorem State.crc8_region_buildFrame (s : State) (type : Byte) (payload : List Byte) :
    crc8 (pack (nibbleSource ((s.buildFrame type payload).txBuf.region 2 (12 + payload.length)))) =
      frameCrc type payload := by
  rw [State.region_buildFrame, nibbleSource_frame]
  rfl

/-- A BUILD or PRESETREQ with ERR = OK has built a frame of at most 120 payload bytes (R107). -/
theorem exists_buildFrame_of_ok {imm : Byte} {i : Instr} {s t : State} (hi : i = .build imm ∨ i = .presetreq imm)
    (hnext : exec i s = .next t) (hok : errOf t.status = 0#4) :
    ∃ type payload, payload.length ≤ 120 ∧ t = s.buildFrame type payload := by
  rcases hi with rfl | rfl
  · rcases execBuild_cases imm s with ⟨e, hcheck, hfail⟩ | ⟨hlen, hbuilt⟩
    · cases hfail.symm.trans hnext
      have he : e = .ok := Err.code_injective e .ok ((errOf_statusWord e false).symm.trans hok)
      exact absurd (he ▸ hcheck) (buildCheck_ne_ok _)
    · cases hbuilt.symm.trans hnext
      exact ⟨_, _, by simpa using hlen, rfl⟩
  · rcases execPresetreq_cases imm s with hfail | hbuilt
    · cases hfail.symm.trans hnext
      simp [Err.code] at hok
    · cases hbuilt.symm.trans hnext
      exact ⟨_, _, by simp, rfl⟩

/-- CKSUM's result is the CRC of its region's packed nibble-source bytes (spec/40_checksum.md R86). -/
theorem State.cksumRegion_ckOut (s : State) (rx : Bool) :
    (s.cksumRegion rx).ckOut =
      crc8 (pack (nibbleSource ((s.cksumBuffer rx).region s.argBase.toNat s.argLen.toNat))) := by
  rw [← State.runChecksum_crcAcc s]
  rfl

/-- CKSUM TX over a region of 4 to 132 bytes within TX_LEN and TX_BUF completes. -/
theorem execCksum_tx {s : State} (h4 : 4 ≤ s.argLen.toNat) (h132 : s.argLen.toNat ≤ 132)
    (hlimit : s.argBase.toNat + s.argLen.toNat ≤ s.txLen.toNat) (hcap : s.argBase.toNat + s.argLen.toNat ≤ 1024) :
    execCksum 0x00#8 s = .next (s.cksumRegion false) :=
  execCksum_of_check_eq_none rfl ((s.cksumCheck_eq_none_iff false).mpr ⟨nofun, h4, hlimit, h132⟩) fun _ => hcap

/-- Settles O24: the state after the build is `State.buildFrame`, whose region from 0xF0 on has the CRC that its checksum
field holds, and the region passes CKSUM's checks. -/
theorem buildThenCksumReproducesTheField : Obligations.BuildThenCksumReproducesTheField := by
  intro imm i s t hi hnext hok
  obtain ⟨type, payload, hlen, rfl⟩ := exists_buildFrame_of_ok hi hnext hok
  have htx : (s.buildFrame type payload).txLen.toNat = 14 + payload.length := by
    rw [State.buildFrame_txLen, BitVec.toNat_ofNat]; omega
  have harg : ((s.buildFrame type payload).txLen - 2#16).toNat = 12 + payload.length := by
    rw [BitVec.toNat_sub, htx]; simp; omega
  have hregion : (s.buildFrame type payload).txLen.toNat - 2 = 12 + payload.length := by omega
  rw [State.join_field_buildFrame, hregion]
  constructor
  · rw [checksum_of_length_le (by simp; omega) (by simp; omega), State.crc8_region_buildFrame]
  · refine ⟨_, execCksum_tx (by rw [harg]; omega) (by rw [harg]; omega) (by rw [harg, htx]; simp; omega)
      (by rw [harg]; simp; omega), ?_, errOf_statusWord .ok false⟩
    rw [State.cksumRegion_ckOut, harg]
    exact s.crc8_region_buildFrame type payload

end Sys2Proof.Machine

/-! PROOFS. The frame decoder (spec/42_decoder.md): what LOCATE and the field decoders answer on each of their paths, and the
length field of a built frame. -/

namespace Sys2Proof.Machine

/-! ### LOCATE -/

section
variable {s : State}

theorem execLocate_of_region (hcap : s.rxLen.toNat > s.rxCap.toNat) :
    execLocate 0x00#8 s = .next (s.failLocate .region) := by
  simp [execLocate, immNonzero, hcap]

theorem execLocate_of_locate_eq_none (hcap : s.rxLen.toNat ≤ s.rxCap.toNat)
    (hnone : locate s.rxBuf s.rxLen.toNat = none) : execLocate 0x00#8 s = .next (s.failLocate .notFound) := by
  simp [execLocate, immNonzero, Nat.not_lt.mpr hcap, hnone]

theorem execLocate_of_locate_eq_some {i : Nat} (hcap : s.rxLen.toNat ≤ s.rxCap.toNat)
    (hsome : locate s.rxBuf s.rxLen.toNat = some i) :
    execLocate 0x00#8 s = .next (State.complete { s with locIdx := BitVec.ofNat 16 i } false) := by
  simp [execLocate, immNonzero, Nat.not_lt.mpr hcap, hsome]

end

/-- Settles O26: the four paths of LOCATE, with the message locator as the least index of 0xF0 (R120). -/
theorem locateFindsTheFirstStartByte : Obligations.LocateFindsTheFirstStartByte := by
  refine ⟨(decode_eq_ok_iff _ _).mpr (by decide), fun imm s => ⟨fun himm => ?_, ?_, ?_, fun i => ?_⟩⟩
  · exact exec_of_illFormed (.locate imm) s (by simpa [Instr.wellFormed] using himm)
  · rintro rfl hcap
    exact execLocate_of_region hcap
  · rintro rfl hcap habsent
    exact execLocate_of_locate_eq_none hcap ((locate_eq_none_iff _ _).mpr habsent)
  · rintro rfl hcap hi hstart hfirst
    exact execLocate_of_locate_eq_some hcap ((locate_eq_some_iff _ _ _).mpr ⟨hi, hstart, hfirst⟩)

/-! ### The field decoders -/

section
variable {s : State} {k : Nat}

theorem State.decodeField_of_imm_ne {imm : Byte} (himm : imm ≠ 0x00#8) : s.decodeField imm k = s.raise .illegal := by
  simp [State.decodeField, immNonzero, himm]

theorem State.decodeField_of_region (hcap : s.rxLen.toNat > s.rxCap.toNat) :
    s.decodeField 0x00#8 k = s.failDecode .region := by
  simp [State.decodeField, immNonzero, hcap]

theorem State.decodeField_of_locate_eq_none (hcap : s.rxLen.toNat ≤ s.rxCap.toNat)
    (hnone : locate s.rxBuf s.rxLen.toNat = none) : s.decodeField 0x00#8 k = s.failDecode .notFound := by
  simp [State.decodeField, immNonzero, Nat.not_lt.mpr hcap, hnone]

/-- With a message start, only the end of the field decides (R123, D17). -/
theorem State.decodeField_of_locate_eq_some {i : Nat} (hcap : s.rxLen.toNat ≤ s.rxCap.toNat)
    (hsome : locate s.rxBuf s.rxLen.toNat = some i) :
    s.decodeField 0x00#8 k =
      if s.rxLen.toNat ≤ i + k + 1 then s.failDecode .fieldRange
      else State.complete { s with decOut := join (s.rxBuf.read (i + k)) (s.rxBuf.read (i + k + 1)) } false := by
  simp [State.decodeField, immNonzero, Nat.not_lt.mpr hcap, hsome]

end

theorem join_eq_ofNat (a b : Byte) : join a b = BitVec.ofNat 8 (a.toNat % 16 * 16 + b.toNat % 16) := by
  rw [← toNat_join, BitVec.ofNat_toNat, BitVec.setWidth_eq]

/-- Settles O27: each decoder is decode_field at its offset, whose paths are the `State.decodeField_of_` lemmas. -/
theorem fieldDecodersJoinTheirPair : Obligations.FieldDecodersJoinTheirPair := by
  intro field hfield imm s
  have hexec : exec (field.2 imm) s = .next (s.decodeField imm field.1) := by
    simp only [List.mem_cons, List.not_mem_nil, or_false] at hfield
    rcases hfield with rfl | rfl | rfl <;> rfl
  rw [hexec]
  refine ⟨fun himm => ?_, ?_, ?_, fun i => ?_⟩
  · rw [State.decodeField_of_imm_ne himm]; rfl
  · rintro rfl hcap
    rw [State.decodeField_of_region hcap]; rfl
  · rintro rfl hcap habsent
    rw [State.decodeField_of_locate_eq_none hcap ((locate_eq_none_iff _ _).mpr habsent)]; rfl
  · rintro rfl hcap hi hstart hfirst
    have hsome := (locate_eq_some_iff _ _ _).mpr ⟨hi, hstart, hfirst⟩
    rw [State.decodeField_of_locate_eq_some hcap hsome]
    refine ⟨fun hbeyond => ?_, fun hwithin => ?_⟩
    · rw [if_pos hbeyond]; rfl
    · rw [if_neg (Nat.not_le.mpr hwithin), join_eq_ofNat]; rfl

/-! ### The length field of a built frame -/

section
variable {m : Memory} {type : Byte} {payload : List Byte}
  (hframe : ∀ i < 14 + payload.length, m.read i = (frame type payload).getD i 0x00#8)
include hframe

/-- A frame starts with two bytes 0x80 and then its 0xF0 (spec/30_encoding.md R66). -/
theorem locate_frame : locate m (14 + payload.length) = some 2 := by
  refine (locate_eq_some_iff _ _ _).mpr ⟨by omega, hframe 2 (by omega), fun j hj => ?_⟩
  rw [hframe j (by omega)]
  interval_cases j <;> exact (by decide : 0x80#8 ≠ 0xF0#8)

/-- The bytes 7 and 8 after the 0xF0 of a frame join to its length byte (spec/41_encoder.md R101). -/
theorem join_lengthField_frame : join (m.read 9) (m.read 10) = BitVec.ofNat 8 payload.length := by
  rw [hframe 9 (by omega), hframe 10 (by omega)]
  exact join_split _

end

/-- DECLEN's decode_field(7) on a frame that fills RX_BUF[0..RX_LEN-1] (R126). -/
theorem State.decodeField_frame {u : State} {type : Byte} {payload : List Byte} (hlen : u.rxLen.toNat = 14 + payload.length)
    (hcap : u.rxLen.toNat ≤ u.rxCap.toNat)
    (hframe : ∀ i < 14 + payload.length, u.rxBuf.read i = (frame type payload).getD i 0x00#8) :
    u.decodeField 0x00#8 7 = State.complete { u with decOut := BitVec.ofNat 8 payload.length } false := by
  have hstart : locate u.rxBuf u.rxLen.toNat = some 2 := hlen ▸ locate_frame hframe
  rw [State.decodeField_of_locate_eq_some hcap hstart, if_neg (by omega), join_lengthField_frame hframe]

/-- Settles O29: the frame in RX_BUF is that of `State.buildFrame`, whose length field holds the two nibbles of L. -/
theorem declenInvertsTheLengthField : Obligations.DeclenInvertsTheLengthField := by
  intro imm s t u hlen hbuild htx hcap hcopy
  cases (execBuild_of_le hlen).symm.trans hbuild
  have hpayload : (s.payloadBuf.region 0 s.argLen.toNat).length = s.argLen.toNat := Memory.length_region _ _ _
  have hrx : u.rxLen.toNat = 14 + (s.payloadBuf.region 0 s.argLen.toNat).length := by
    rw [htx, State.buildFrame_txLen, BitVec.toNat_ofNat]; omega
  have hframe := fun i hi => (hcopy i (hrx ▸ hi)).trans (s.read_buildFrame imm _ i)
  refine (congrArg _ (State.decodeField_frame hrx hcap hframe)).trans ?_
  rw [hpayload]
  rfl

end Sys2Proof.Machine

/-! PROOFS. The switch debouncer (spec/43_debouncer.md): what SWINIT and SWPOLL answer on each of their paths, the comparator on
a shifted history, what a held pin latches, and the position output. -/

namespace Sys2Proof.Machine

/-! ### SWINIT and SWPOLL -/

/-- The first check of every command with required-zero bits of IMM (spec/60_exceptions.md R162). -/
theorem exec_of_requiredZero_ne {i : Instr} {s : State} (himm : i.imm &&& i.immMask ≠ 0x00#8) :
    exec i s = .next (s.raise .illegal) :=
  exec_of_illFormed i s (by rwa [← Bool.not_eq_true, Instr.wellFormed_iff])

@[simp] theorem State.raise_contact (s : State) (e : Err) (c : Contact) : (s.raise e).contact c = s.contact c := by
  cases c <;> rfl

@[simp] theorem State.complete_contact (s : State) (b : Bool) (c : Contact) : (s.complete b).contact c = s.contact c := by
  cases c <;> rfl

theorem State.contact_withNow (s : State) (t : Time) (c : Contact) :
    State.contact { s with now := t } c = s.contact c := by
  cases c <;> rfl

/-- A command that ends by updating contact `c` leaves the other contact and everything else but STATUS (R140, R143). -/
theorem State.complete_setContact_frame (s : State) (c : Contact) (k : ContactState) (b : Bool) :
    ((s.setContact c k).complete b).contact c = k ∧
      (∀ d, d ≠ c → ((s.setContact c k).complete b).contact d = s.contact d) ∧
      (s.setContact c k).complete b =
        { s with
          status := statusWord .ok b
          contact0 := ((s.setContact c k).complete b).contact0
          contact1 := ((s.setContact c k).complete b).contact1 } := by
  refine ⟨by simp, fun d hd => ?_, by cases c <;> rfl⟩
  rw [complete_contact, s.setContact_contact_of_ne c d k hd]

section
variable {imm : Byte} {s : State} (himm : imm &&& 0xFE#8 = 0x00#8)
include himm

theorem execSwinit_of_legal :
    execSwinit imm s =
      .next ((s.setContact (contactOf imm) (seedContact (s.pin (contactOf imm)) s.now)).complete false) := by
  simp [execSwinit, (immHighNonzero_eq_false_iff imm).mpr himm]

theorem execSwpoll_of_unseeded (hinit : (s.contact (contactOf imm)).init = false) :
    execSwpoll imm s = .next (s.raise .uninit) := by
  simp [execSwpoll, (immHighNonzero_eq_false_iff imm).mpr himm, hinit]

variable (hinit : (s.contact (contactOf imm)).init = true)
include hinit

/-- The closed gate (R142). -/
theorem execSwpoll_of_gate_closed (hgate : (s.now - (s.contact (contactOf imm)).last).toNat < 10) :
    execSwpoll imm s = .next (s.complete false) := by
  have hclosed : gateOpen (s.contact (contactOf imm)).last s.now = false := by
    rw [← Bool.not_eq_true, gateOpen_iff]; omega
  simp [execSwpoll, (immHighNonzero_eq_false_iff imm).mpr himm, hinit, hclosed]

/-- The taken poll (R142, R143). -/
theorem execSwpoll_of_gate_open (hgate : 10 ≤ (s.now - (s.contact (contactOf imm)).last).toNat) :
    execSwpoll imm s =
      .next ((s.setContact (contactOf imm)
        ((s.contact (contactOf imm)).takePoll (s.pin (contactOf imm)) s.now)).complete true) := by
  simp [execSwpoll, (immHighNonzero_eq_false_iff imm).mpr himm, hinit, (gateOpen_iff _ _).mpr hgate]

end

/-- Settles O31: `execSwinit_of_legal` with the frame of a contact's update, and any other IMM is ill-formed. -/
theorem swinitSeedsTheContact : Obligations.SwinitSeedsTheContact := by
  refine ⟨(decode_eq_ok_iff _ _).mpr (by decide), (decode_eq_ok_iff _ _).mpr (by decide), fun imm s => ⟨fun himm => ?_,
    fun himm => ?_⟩⟩
  · exact exec_of_requiredZero_ne (i := .swinit imm) himm
  · exact ⟨_, execSwinit_of_legal himm, s.complete_setContact_frame _ _ _⟩

/-- The history shift-in as arithmetic mod 2^8 (R144). -/
theorem shiftIn_eq_ofNat (h : Byte) (p : Level) : shiftIn h p = BitVec.ofNat 8 (h.toNat * 2 + (1 - p.toNat)) := by
  revert h p; decide

/-- The three things a taken poll can make of a contact (R143). -/
theorem ContactState.takePoll_eq (k : ContactState) (p : Level) (t : Time) :
    k.takePoll p t =
      if shiftIn k.hist p &&& 0xC7#8 = 0x07#8 then ⟨0xFF#8, .closed, t, k.init⟩
      else if shiftIn k.hist p &&& 0xC7#8 = 0xC0#8 then ⟨0x00#8, .opened, t, k.init⟩
      else ⟨shiftIn k.hist p, k.latch, t, k.init⟩ := by
  simp only [takePoll, compareHistory]
  split_ifs <;> rfl

/-- The elapsed time without the word's subtraction (R141). -/
theorem toNat_time_sub (t last : Time) : (t - last).toNat = (t.toNat + 2 ^ 32 - last.toNat) % 2 ^ 32 := by
  rw [BitVec.toNat_sub]; omega

/-- Settles O32: one equation of SWPOLL for each clause, and `ContactState.takePoll_eq` is the contact after a taken poll. -/
theorem swpollFollowsGateAndComparator : Obligations.SwpollFollowsGateAndComparator := by
  refine ⟨(decode_eq_ok_iff _ _).mpr (by decide), (decode_eq_ok_iff _ _).mpr (by decide), fun imm s => ?_⟩
  intro c k since h m
  have hsince : (s.now - k.last).toNat = since := toNat_time_sub s.now k.last
  refine ⟨fun himm => ?_, fun himm hinit => ?_, fun himm hinit hgate => ?_, fun himm hinit hgate => ?_⟩
  · exact exec_of_requiredZero_ne (i := .swpoll imm) himm
  · exact execSwpoll_of_unseeded himm hinit
  · exact execSwpoll_of_gate_closed himm hinit (hsince ▸ hgate)
  · obtain ⟨hcontact, hframe⟩ := s.complete_setContact_frame c (k.takePoll (s.pin c) s.now) true
    refine ⟨_, execSwpoll_of_gate_open himm hinit (hsince ▸ hgate), hcontact.trans ?_, hframe⟩
    rw [ContactState.takePoll_eq, shiftIn_eq_ofNat, hinit]

/-- Settles O33: the two gate equations of SWPOLL; the untaken poll writes STATUS only, so the next one is measured from the
same SW_LAST. -/
theorem untakenPollsDoNotMoveTheGate : Obligations.UntakenPollsDoNotMoveTheGate := by
  intro imm s himm hinit last
  refine ⟨execSwpoll_of_gate_closed himm hinit, fun hgate => ?_, fun hnow => ?_⟩
  · refine ⟨_, execSwpoll_of_gate_open himm hinit hgate, rfl, ?_⟩
    exact congrArg ContactState.last (s.setContact_contact _ _)
  · have hnine : (s.now - last).toNat < 10 := by rw [hnow]; simp
    have heighteen : 10 ≤ (last + 18#32 - last).toNat := by simp
    have hcontact := ((s.complete false).contact_withNow (last + 18#32) (contactOf imm)).trans (s.complete_contact _ _)
    exact ⟨_, _, execSwpoll_of_gate_closed himm hinit hnine, pollTakenOf_statusWord .ok false,
      execSwpoll_of_gate_open himm (hcontact ▸ hinit) (hcontact ▸ heighteen), pollTakenOf_statusWord .ok true⟩

/-! ### The comparator on a shifted history -/

/-- The latch that stands for a pin level: LOW is CLOSED and HIGH is OPENED (spec/10_state.md R28, R30). -/
def latchOf (p : Level) : Latch := if p = 0#1 then .closed else .opened

theorem Latch.ne_latchOf_iff {l : Latch} (p : Level) : l ≠ latchOf p ↔ l = latchOf (~~~p) := by
  revert p; cases l <;> decide

/-- The masked history that latches a pin level (R145). -/
def patternOf (p : Level) : Byte := if p = 0#1 then Config.closePat else Config.openPat

/-- A poll matches the pattern of the level it samples when bits 0 and 1 of the stored history are samples of that level, and
bits 5 and 6 of the other one. -/
theorem shiftIn_masked_eq_patternOf_iff (h : Byte) (p : Level) :
    shiftIn h p &&& 0xC7#8 = patternOf p ↔
      h.getLsbD 0 = (p == 0#1) ∧ h.getLsbD 1 = (p == 0#1) ∧ h.getLsbD 5 = (p == 1#1) ∧ h.getLsbD 6 = (p == 1#1) := by
  revert h p; decide

/-- The newest sample is in bit 0 of the mask, so no poll matches the pattern of the level it does not sample. -/
theorem shiftIn_masked_ne_patternOf_not (h : Byte) (p : Level) : shiftIn h p &&& 0xC7#8 ≠ patternOf (~~~p) := by
  revert h p; decide

/-- A taken poll as a match of the sampled level's pattern, which seeds the contact at that level, or a shift alone. -/
theorem ContactState.takePoll_eq_of_pattern (k : ContactState) (p : Level) (t : Time) :
    k.takePoll p t =
      if shiftIn k.hist p &&& 0xC7#8 = patternOf p then { seedContact p t with init := k.init }
      else ⟨shiftIn k.hist p, k.latch, t, k.init⟩ := by
  have hother := shiftIn_masked_ne_patternOf_not k.hist p
  rw [takePoll_eq]
  rcases level_eq_zero_or_one p with rfl | rfl
  · exact congrArg _ (if_neg hother)
  · exact if_neg hother

theorem seedContact_latch (p : Level) (t : Time) : (seedContact p t).latch = latchOf p := by
  unfold seedContact latchOf; split <;> rfl

theorem ContactState.takePoll_latch_of_match {k : ContactState} {p : Level}
    (hmatch : shiftIn k.hist p &&& 0xC7#8 = patternOf p) (t : Time) : (k.takePoll p t).latch = latchOf p := by
  rw [takePoll_eq_of_pattern, if_pos hmatch]
  exact seedContact_latch p t

theorem ContactState.takePoll_of_no_match {k : ContactState} {p : Level}
    (hmatch : shiftIn k.hist p &&& 0xC7#8 ≠ patternOf p) (t : Time) :
    k.takePoll p t = ⟨shiftIn k.hist p, k.latch, t, k.init⟩ := by
  rw [takePoll_eq_of_pattern, if_neg hmatch]

/-- Settles O37: a command that changes the latch is a taken poll that matches the pattern of its level. -/
theorem latchChangeNeedsItsPattern : Obligations.LatchChangeNeedsItsPattern := by
  intro imm s t k h hne
  rcases execSwpoll_cases imm s with ⟨e, hnext⟩ | hnext | ⟨-, hgate, hnext⟩ <;> cases hnext.symm.trans h
  · exact absurd (congrArg _ (s.raise_contact e _)) hne
  · exact absurd (congrArg _ (s.complete_contact false _)) hne
  · obtain ⟨hcontact, -⟩ := s.complete_setContact_frame (contactOf imm) (k.takePoll (s.pin (contactOf imm)) s.now) true
    rw [hcontact] at hne ⊢
    have hmatch : shiftIn k.hist (s.pin (contactOf imm)) &&& 0xC7#8 = patternOf (s.pin (contactOf imm)) := by
      by_contra hno
      exact hne (by rw [ContactState.takePoll_of_no_match hno])
    refine ⟨(gateOpen_iff _ _).mp hgate, ?_⟩
    rw [ContactState.takePoll_latch_of_match hmatch]
    have hbits := (shiftIn_masked_eq_patternOf_iff _ _).mp hmatch
    rcases level_eq_zero_or_one (s.pin (contactOf imm)) with hpin | hpin <;> rw [hpin] at hbits ⊢
    · exact ⟨fun _ => ⟨rfl, hbits⟩, nofun⟩
    · exact ⟨nofun, fun _ => ⟨rfl, hbits⟩⟩

/-! ### What a held pin latches -/

/-- The history after `n` samples of level `p`, as long as no poll matches a pattern (R144). -/
def heldHistory (p : Level) (n : Nat) (h : Byte) : Byte := (shiftIn · p)^[n] h

theorem heldHistory_succ (p : Level) (n : Nat) (h : Byte) : heldHistory p (n + 1) h = heldHistory p n (shiftIn h p) :=
  Function.iterate_succ_apply _ n h

theorem heldHistory_succ' (p : Level) (n : Nat) (h : Byte) : heldHistory p (n + 1) h = shiftIn (heldHistory p n h) p :=
  Function.iterate_succ_apply' _ n h

/-- `n` open samples shift in `n` zeros. -/
theorem heldHistory_high (n : Nat) (h : Byte) : heldHistory 1#1 n h = h <<< n := by
  induction n with
  | zero => rw [BitVec.shiftLeft_zero]; rfl
  | succ n ih => rw [heldHistory_succ', ih, shiftIn_high, BitVec.shiftLeft_add]

theorem shiftIn_ones_low (n : Nat) : shiftIn (BitVec.ofNat 8 (2 ^ n - 1)) 0#1 = BitVec.ofNat 8 (2 ^ (n + 1) - 1) := by
  have hpos : 0 < 2 ^ n := Nat.two_pow_pos n
  apply BitVec.eq_of_toNat_eq
  simp only [shiftIn_eq_ofNat, BitVec.toNat_ofNat, Nat.pow_succ]
  omega

/-- `n` pressed samples shift in `n` ones. -/
theorem heldHistory_low (n : Nat) (h : Byte) : heldHistory 0#1 n h = (h <<< n) ||| BitVec.ofNat 8 (2 ^ n - 1) := by
  induction n with
  | zero => simp [heldHistory]
  | succ n ih =>
    rw [heldHistory_succ', ih, shiftIn_low, BitVec.shiftLeft_or_distrib, BitVec.or_assoc, ← shiftIn_low,
      shiftIn_ones_low, BitVec.shiftLeft_add]

/-- One of the next eight samples of level `p` brings the history to the pattern of `p` (R149). -/
abbrev MatchesWhenHeld (p : Level) (h : Byte) : Prop := ∃ j < 8, heldHistory p (j + 1) h &&& 0xC7#8 = patternOf p

/-- Eight held samples fill the history, so from the ninth on nothing matches (R149). -/
theorem heldHistory_masked_ne_of_nine_le {n : Nat} (hn : 9 ≤ n) (p : Level) (h : Byte) :
    heldHistory p n h &&& 0xC7#8 ≠ patternOf p := by
  have hninth : ∀ (p : Level) (h : Byte), heldHistory p 9 h &&& 0xC7#8 ≠ patternOf p := by decide
  obtain ⟨i, rfl⟩ := Nat.exists_eq_add_of_le hn
  rw [heldHistory, Function.iterate_add_apply]
  exact hninth p _

namespace ContactState

/-- A held level stays latched: no poll of it matches the other pattern. -/
theorem heldPolls_latch_of_latch {k : ContactState} {p : Level} (hk : k.latch = latchOf p) (ts : List Time) :
    (k.heldPolls p ts).latch = latchOf p := by
  induction ts generalizing k with
  | nil => exact hk
  | cons t ts ih =>
    refine ih ?_
    by_cases hmatch : shiftIn k.hist p &&& 0xC7#8 = patternOf p
    · exact takePoll_latch_of_match hmatch t
    · exact (congrArg latch (takePoll_of_no_match hmatch t)).trans hk

/-- A run of polls with the pin held latches its level exactly when the shifted history matches at one of them. -/
theorem heldPolls_latch_iff {k : ContactState} {p : Level} (hk : k.latch ≠ latchOf p) (ts : List Time) :
    (k.heldPolls p ts).latch = latchOf p ↔ ∃ j < ts.length, heldHistory p (j + 1) k.hist &&& 0xC7#8 = patternOf p := by
  induction ts generalizing k with
  | nil => simpa using hk
  | cons t ts ih =>
    rw [heldPolls_cons, List.length_cons, Nat.exists_lt_succ_left]
    by_cases hmatch : shiftIn k.hist p &&& 0xC7#8 = patternOf p
    · exact iff_of_true (heldPolls_latch_of_latch (takePoll_latch_of_match hmatch t) ts) (.inl hmatch)
    · simp only [heldHistory_succ p (_ + 1)]
      rw [takePoll_of_no_match hmatch, ih (by exact hk)]
      exact (or_iff_right hmatch).symm

/-- The lock-out condition (R149). -/
theorem exists_heldPolls_latch_iff {k : ContactState} {p : Level} (hk : k.latch ≠ latchOf p) :
    (∃ ts, (k.heldPolls p ts).latch = latchOf p) ↔ MatchesWhenHeld p k.hist := by
  simp only [heldPolls_latch_iff hk]
  constructor
  · rintro ⟨ts, j, -, hmatch⟩
    refine ⟨j, ?_, hmatch⟩
    by_contra hj
    exact heldHistory_masked_ne_of_nine_le (by omega) p k.hist hmatch
  · rintro ⟨j, hj, hmatch⟩
    exact ⟨List.replicate 8 0#32, j, by simpa using hj, hmatch⟩

/-- A contact at the other level locks out from exactly the histories that never match within eight held samples (R149). -/
theorem forall_heldPolls_latch_iff {k : ContactState} {p : Level} (hk : k.latch = latchOf (~~~p)) :
    (∀ ts, (k.heldPolls p ts).latch = latchOf (~~~p)) ↔ ¬ MatchesWhenHeld p k.hist := by
  simp only [← Latch.ne_latchOf_iff] at hk ⊢
  rw [← exists_heldPolls_latch_iff hk, not_exists]

end ContactState

/-! ### The lists of spec/95_test_vectors.md V13 -/

/-- The histories from which the level `p`, held, is never latched, in rising order. -/
def lockOutHistories (p : Level) : List Byte :=
  ((List.finRange 256).map BitVec.ofFin).filter fun h => ¬ MatchesWhenHeld p h

theorem mem_lockOutHistories (p : Level) (h : Byte) : h ∈ lockOutHistories p ↔ ¬ MatchesWhenHeld p h := by
  have hall : h ∈ (List.finRange 256).map BitVec.ofFin := List.mem_map.mpr ⟨h.toFin, List.mem_finRange _, rfl⟩
  simp only [lockOutHistories, List.mem_filter, hall, true_and, decide_eq_true_eq]

theorem nodup_lockOutHistories (p : Level) : (lockOutHistories p).Nodup :=
  ((List.nodup_finRange 256).map fun _ _ => BitVec.ofFin.inj).filter _

theorem noCloseHistories_eq : noCloseHistories = lockOutHistories 0#1 := by
  decide

theorem noOpenHistories_eq : noOpenHistories = lockOutHistories 1#1 := by
  decide

/-- The two directions of the filter mirror each other: complementing every sample and the history complements the result. -/
theorem heldHistory_not (p : Level) (n : Nat) (h : Byte) : heldHistory (~~~p) n (~~~h) = ~~~heldHistory p n h := by
  have hshift : ∀ (p : Level) (h : Byte), shiftIn (~~~h) (~~~p) = ~~~shiftIn h p := by decide
  induction n generalizing h with
  | zero => rfl
  | succ n ih => rw [heldHistory_succ, heldHistory_succ, hshift, ih]

theorem not_masked_eq_patternOf_not_iff (h : Byte) (p : Level) :
    ~~~h &&& 0xC7#8 = patternOf (~~~p) ↔ h &&& 0xC7#8 = patternOf p := by
  revert h p; decide

theorem matchesWhenHeld_not_iff (p : Level) (h : Byte) : MatchesWhenHeld (~~~p) (~~~h) ↔ MatchesWhenHeld p h := by
  simp only [MatchesWhenHeld, heldHistory_not, not_masked_eq_patternOf_not_iff]

/-- Settles O36: the lists are the lock-out condition of `ContactState.forall_heldPolls_latch_iff`, history by history, and the
two conditions are mirror images. -/
theorem eightySixHistoriesLockOut : Obligations.EightySixHistoriesLockOut := by
  refine ⟨fun k hk => ?_, fun k hk => ?_, ?_, rfl, ?_, rfl, fun h => ?_⟩
  · rw [noCloseHistories_eq, mem_lockOutHistories]
    exact ContactState.forall_heldPolls_latch_iff (p := 0#1) hk
  · rw [noOpenHistories_eq, mem_lockOutHistories]
    exact ContactState.forall_heldPolls_latch_iff (p := 1#1) hk
  · exact noCloseHistories_eq ▸ nodup_lockOutHistories 0#1
  · exact noOpenHistories_eq ▸ nodup_lockOutHistories 1#1
  · rw [noOpenHistories_eq, noCloseHistories_eq, mem_lockOutHistories, mem_lockOutHistories]
    exact (matchesWhenHeld_not_iff 1#1 h).symm.not

/-! ### Runs of taken polls -/

/-- The state after a taken poll of contact `c` at level `p` and time `t`. -/
def State.polled (s : State) (c : Contact) (p : Level) (t : Time) : State :=
  (State.setContact { s.setPin c p with now := t } c ((s.contact c).takePoll p t)).complete true

@[simp] theorem State.polled_contact (s : State) (c : Contact) (p : Level) (t : Time) :
    (s.polled c p t).contact c = (s.contact c).takePoll p t :=
  State.setContact_contact _ c _

theorem State.setPin_contact (s : State) (c d : Contact) (p : Level) (t : Time) :
    State.contact { s.setPin c p with now := t } d = s.contact d := by
  cases c <;> cases d <;> rfl

theorem State.setPin_pin (s : State) (c : Contact) (p : Level) (t : Time) :
    State.pin { s.setPin c p with now := t } c = p := by
  cases c <;> rfl

section
variable {imm : Byte} {s : State} (himm : imm &&& 0xFE#8 = 0x00#8) (hinit : (s.contact (contactOf imm)).init = true)
include himm hinit

/-- A run goes on exactly through an open gate. -/
theorem takenPolls_cons (p : Level) (t : Time) (rest : List (Level × Time)) :
    takenPolls imm ((p, t) :: rest) s =
      if 10 ≤ (t - (s.contact (contactOf imm)).last).toNat then takenPolls imm rest (s.polled (contactOf imm) p t)
      else none := by
  have hcontact := s.setPin_contact (contactOf imm) (contactOf imm) p t
  rw [takenPolls]
  split_ifs with hgate
  · have hnext := execSwpoll_of_gate_open himm (hcontact ▸ hinit) (by rw [hcontact]; exact hgate)
    rw [hcontact, State.setPin_pin] at hnext
    rw [exec, hnext]
    exact if_pos (pollTakenOf_statusWord .ok true)
  · have hnext := execSwpoll_of_gate_closed himm (hcontact ▸ hinit) (by rw [hcontact]; exact Nat.not_le.mp hgate)
    rw [exec, hnext]
    exact if_neg (by rw [State.complete_status, pollTakenOf_statusWord]; decide)

theorem takenPolls_singleton (p : Level) {t : Time} (hgate : 10 ≤ (t - (s.contact (contactOf imm)).last).toNat) :
    takenPolls imm [(p, t)] s = some (s.polled (contactOf imm) p t) :=
  (takenPolls_cons himm hinit p t []).trans (if_pos hgate)

/-- What a run of taken polls with the pin held does to its contact. -/
theorem contact_of_takenPolls_held {p : Level} {ts : List Time} {u : State}
    (hrun : takenPolls imm (ts.map fun t => (p, t)) s = some u) :
    u.contact (contactOf imm) = (s.contact (contactOf imm)).heldPolls p ts := by
  induction ts generalizing s with
  | nil => cases hrun; rfl
  | cons t ts ih =>
    rw [List.map_cons, takenPolls_cons himm hinit] at hrun
    split_ifs at hrun
    rw [ih (by simpa using hinit) hrun, State.polled_contact]
    rfl

/-- Polls 10 ms apart are all taken, so there are runs of every length. -/
theorem exists_takenPolls_held (p : Level) (n : Nat) :
    ∃ (ts : List Time) (u : State), ts.length = n ∧ takenPolls imm (ts.map fun t => (p, t)) s = some u := by
  induction n generalizing s with
  | zero => exact ⟨[], s, rfl, rfl⟩
  | succ n ih =>
    obtain ⟨t, hgate⟩ : ∃ t, 10 ≤ (t - (s.contact (contactOf imm)).last).toNat :=
      ⟨(s.contact (contactOf imm)).last + 10#32, by simp⟩
    obtain ⟨ts, u, hlen, hrun⟩ := ih (s := s.polled (contactOf imm) p t) (by simpa using hinit)
    refine ⟨t :: ts, u, congrArg (· + 1) hlen, ?_⟩
    rw [List.map_cons, takenPolls_cons himm hinit, if_pos hgate, hrun]

/-- Runs of taken polls latch the held level exactly from the histories that match: the times of the polls do not matter. -/
theorem exists_takenPolls_latch_iff {p : Level} (hk : (s.contact (contactOf imm)).latch = latchOf (~~~p)) :
    (∃ (ts : List Time) (u : State), takenPolls imm (ts.map fun t => (p, t)) s = some u ∧
        (u.contact (contactOf imm)).latch = latchOf p) ↔
      MatchesWhenHeld p (s.contact (contactOf imm)).hist := by
  rw [← ContactState.exists_heldPolls_latch_iff ((Latch.ne_latchOf_iff p).mpr hk)]
  constructor
  · rintro ⟨ts, u, hrun, hlatch⟩
    exact ⟨ts, contact_of_takenPolls_held himm hinit hrun ▸ hlatch⟩
  · rintro ⟨ts, hlatch⟩
    obtain ⟨ts', u, hlen, hrun⟩ := exists_takenPolls_held himm hinit p ts.length
    have htimes := ContactState.heldPolls_times p ts' ts hlen (s.contact (contactOf imm)) _ rfl rfl
    refine ⟨ts', u, hrun, ?_⟩
    rw [contact_of_takenPolls_held himm hinit hrun, htimes.2, hlatch]

/-- Three polls through an open gate each time, with the pin held. -/
theorem three_takenPolls_held (p : Level) {t₁ t₂ t₃ : Time}
    (h₁ : 10 ≤ (t₁ - (s.contact (contactOf imm)).last).toNat) (h₂ : 10 ≤ (t₂ - t₁).toNat)
    (h₃ : 10 ≤ (t₃ - t₂).toNat) :
    ∃ s₁ s₂ s₃, takenPolls imm [(p, t₁)] s = some s₁ ∧ takenPolls imm [(p, t₂)] s₁ = some s₂ ∧
      takenPolls imm [(p, t₃)] s₂ = some s₃ ∧
      s₁.contact (contactOf imm) = (s.contact (contactOf imm)).takePoll p t₁ ∧
      s₂.contact (contactOf imm) = ((s.contact (contactOf imm)).takePoll p t₁).takePoll p t₂ ∧
      s₃.contact (contactOf imm) = (((s.contact (contactOf imm)).takePoll p t₁).takePoll p t₂).takePoll p t₃ := by
  refine ⟨_, _, _, takenPolls_singleton himm hinit p h₁, takenPolls_singleton himm ?_ p ?_,
    takenPolls_singleton himm ?_ p ?_, by simp, by simp, by simp⟩ <;> simpa

end

/-- Settles O34: three polls of the contact, evaluated from each settled state. -/
theorem threeHeldPollsLatchFromSettled : Obligations.ThreeHeldPollsLatchFromSettled := by
  intro imm s t₁ t₂ t₃ c himm hinit h₁ h₂ h₃
  have hcontact {hist : Byte} {latch : Latch} (hlatch : (s.contact c).latch = latch) (hhist : (s.contact c).hist = hist) :
      s.contact c = ⟨hist, latch, (s.contact c).last, true⟩ := by
    rw [← hlatch, ← hhist, ← hinit]
  refine ⟨fun hlatch hhist => ?_, fun hlatch hhist => ?_⟩
  · have hpolls := three_takenPolls_held himm hinit 0#1 h₁ h₂ h₃
    rw [hcontact hlatch hhist] at hpolls
    simpa [ContactState.takePoll_eq] using hpolls
  · have hpolls := three_takenPolls_held himm hinit 1#1 h₁ h₂ h₃
    rw [hcontact hlatch hhist] at hpolls
    simpa [ContactState.takePoll_eq] using hpolls

theorem exists_lt_succ_iff_exists_one_le (n : Nat) (P : Nat → Prop) :
    (∃ j < n, P (j + 1)) ↔ ∃ k, 1 ≤ k ∧ k ≤ n ∧ P k := by
  constructor
  · rintro ⟨j, hj, h⟩
    exact ⟨j + 1, by omega, hj, h⟩
  · rintro ⟨k, hk, hn, h⟩
    obtain ⟨j, rfl⟩ := Nat.exists_eq_add_of_le' hk
    exact ⟨j, hn, h⟩

/-- Settles O35: a run latches exactly when the history matches within eight samples, and k samples shift in k equal bits. -/
theorem lockOutIsExactlyTheHistoryCondition : Obligations.LockOutIsExactlyTheHistoryCondition := by
  intro imm s c h himm hinit
  refine ⟨fun hlatch => ?_, fun hlatch => ?_⟩
  · refine (exists_takenPolls_latch_iff himm hinit (p := 0#1) hlatch).trans ?_
    simp only [MatchesWhenHeld, heldHistory_low]
    exact exists_lt_succ_iff_exists_one_le 8 fun k => ((h <<< k) ||| BitVec.ofNat 8 (2 ^ k - 1)) &&& 0xC7#8 = 0x07#8
  · refine (exists_takenPolls_latch_iff himm hinit (p := 1#1) hlatch).trans ?_
    simp only [MatchesWhenHeld, heldHistory_high]
    exact exists_lt_succ_iff_exists_one_le 8 fun k => (h <<< k) &&& 0xC7#8 = 0xC0#8

/-! ### The position output -/

/-- POS as a number: POS_VALID is bit 2, above POS_CODE (R146). -/
theorem State.toNat_posWord (s : State) :
    s.posWord.toNat =
      (if s.contact0.init = true ∧ s.contact1.init = true then 4 else 0) +
        (positionCode s.contact0.latch s.contact1.latch).toNat := by
  unfold posWord
  cases s.contact0.init <;> cases s.contact1.init <;>
    cases s.contact0.latch <;> cases s.contact1.latch <;> rfl

/-- Settles O39: `State.toNat_posWord` with the code of each pair of latches. -/
theorem positionFollowsTheLatches : Obligations.PositionFollowsTheLatches := by
  intro s valid
  have hpos : (s.readReg .pos).toNat = valid + (positionCode s.contact0.latch s.contact1.latch).toNat := by
    rw [← State.toNat_posWord]
    exact BitVec.toNat_setWidth_of_le (by decide)
  refine ⟨fun h0 h1 => ?_, fun h0 h1 => ?_, fun h0 h1 => ?_, fun h0 h1 => ?_⟩ <;> rw [hpos, h0, h1] <;> rfl

end Sys2Proof.Machine

/-! PROOFS. The exceptions (spec/60_exceptions.md): which commands end with ERR_ILLEGAL, and what a command that ends with an
error writes. -/

namespace Sys2Proof.Machine

/-! ### ERR_ILLEGAL -/

theorem errOf_statusWord_ne_illegal {e : Err} (he : e ≠ .illegal) (taken : Bool) : errOf (statusWord e taken) ≠ 1#4 :=
  fun hcode => he (Err.code_injective e .illegal ((errOf_statusWord e taken).symm.trans hcode))

theorem buildCheck_ne_illegal (len : Nat) : buildCheck len ≠ some .illegal := by
  rw [buildCheck_eq]
  split_ifs <;> simp

theorem State.cksumCheck_ne_illegal (s : State) (rx : Bool) : s.cksumCheck rx ≠ some .illegal := by
  rw [State.cksumCheck_eq]
  split_ifs <;> simp

/-- Past CKSUM's check of IMM, its error is that of `State.cksumCheck`. -/
theorem execCksum_cases_of_legal {imm : Byte} {s t : State} (himm : imm &&& 0xFE#8 = 0x00#8)
    (h : execCksum imm s = .next t) :
    (∃ e, s.cksumCheck (selectsRx imm) = some e ∧ t = s.failCksum e) ∨ t = s.cksumRegion (selectsRx imm) := by
  cases hcheck : s.cksumCheck (selectsRx imm) with
  | some e => exact .inl ⟨e, rfl, Host.Outcome.next.inj (h.symm.trans (execCksum_of_check_eq_some himm hcheck))⟩
  | none =>
    simp only [execCksum, (immHighNonzero_eq_false_iff imm).mpr himm, hcheck, Bool.false_eq_true, if_false] at h
    split at h
    · cases h
    · exact .inr (Host.Outcome.next.inj h).symm

/-- With IMM = 0, LOCATE fails with an error of its later checks, or it finds a start byte (spec/42_decoder.md R122). -/
theorem execLocate_cases_of_legal (s : State) :
    (∃ e, e ≠ .illegal ∧ execLocate 0x00#8 s = .next (s.failLocate e)) ∨
      ∃ i, execLocate 0x00#8 s = .next (State.complete { s with locIdx := BitVec.ofNat 16 i } false) := by
  by_cases hcap : s.rxLen.toNat > s.rxCap.toNat
  · exact .inl ⟨.region, by decide, execLocate_of_region hcap⟩
  · have hcap := Nat.not_lt.mp hcap
    cases hstart : locate s.rxBuf s.rxLen.toNat with
    | none => exact .inl ⟨.notFound, by decide, execLocate_of_locate_eq_none hcap hstart⟩
    | some i => exact .inr ⟨i, execLocate_of_locate_eq_some hcap hstart⟩

/-- With IMM = 0, decode_field(k) fails with an error of its later checks, or it joins a pair (spec/42_decoder.md R123). -/
theorem State.decodeField_cases_of_legal (s : State) (k : Nat) :
    (∃ e, e ≠ .illegal ∧ s.decodeField 0x00#8 k = s.failDecode e) ∨
      ∃ b, s.decodeField 0x00#8 k = State.complete { s with decOut := b } false := by
  by_cases hcap : s.rxLen.toNat > s.rxCap.toNat
  · exact .inl ⟨.region, by decide, State.decodeField_of_region hcap⟩
  · have hcap := Nat.not_lt.mp hcap
    cases hstart : locate s.rxBuf s.rxLen.toNat with
    | none => exact .inl ⟨.notFound, by decide, State.decodeField_of_locate_eq_none hcap hstart⟩
    | some i =>
      rw [State.decodeField_of_locate_eq_some hcap hstart]
      split
      · exact .inl ⟨.fieldRange, by decide, rfl⟩
      · exact .inr ⟨_, rfl⟩

/-- Past SWPOLL's check of IMM, its one error is the unseeded contact (spec/43_debouncer.md R143). -/
theorem execSwpoll_status_of_legal {imm : Byte} {s t : State} (himm : imm &&& 0xFE#8 = 0x00#8)
    (h : execSwpoll imm s = .next t) :
    t.status = statusWord .uninit false ∨ ∃ taken, t.status = statusWord .ok taken := by
  cases hinit : (s.contact (contactOf imm)).init with
  | false =>
    cases (execSwpoll_of_unseeded himm hinit).symm.trans h
    exact .inl rfl
  | true =>
    by_cases hgate : 10 ≤ (s.now - (s.contact (contactOf imm)).last).toNat
    · cases (execSwpoll_of_gate_open himm hinit hgate).symm.trans h
      exact .inr ⟨true, rfl⟩
    · cases (execSwpoll_of_gate_closed himm hinit (Nat.lt_of_not_le hgate)).symm.trans h
      exact .inr ⟨false, rfl⟩

/-- A well-formed command never raises ERR_ILLEGAL: its other checks raise other errors (R161, R162). -/
theorem exec_status_of_wellFormed {i : Instr} {s t : State} (hi : i.wellFormed = true) (h : exec i s = .next t) :
    ∃ e taken, e ≠ .illegal ∧ t.status = statusWord e taken := by
  have himm := i.wellFormed_iff.mp hi
  cases i with
  | build imm =>
    rcases execBuild_cases imm s with ⟨e, hcheck, hnext⟩ | ⟨-, hnext⟩ <;> cases hnext.symm.trans h
    · exact ⟨e, false, fun he => buildCheck_ne_illegal _ (he ▸ hcheck), rfl⟩
    · exact ⟨.ok, false, by decide, rfl⟩
  | presetreq imm =>
    obtain rfl : imm = 0x00#8 := by simpa [Instr.wellFormed] using hi
    cases h
    exact ⟨.ok, false, by decide, rfl⟩
  | cksum imm =>
    rcases execCksum_cases_of_legal himm h with ⟨e, hcheck, rfl⟩ | rfl
    · exact ⟨e, false, fun he => State.cksumCheck_ne_illegal s _ (he ▸ hcheck), rfl⟩
    · exact ⟨.ok, false, by decide, rfl⟩
  | locate imm =>
    obtain rfl : imm = 0x00#8 := by simpa [Instr.wellFormed] using hi
    rcases execLocate_cases_of_legal s with ⟨e, he, hnext⟩ | ⟨k, hnext⟩ <;> cases hnext.symm.trans h
    · exact ⟨e, false, he, rfl⟩
    · exact ⟨.ok, false, by decide, rfl⟩
  | decop imm | decpre imm | declen imm =>
    obtain rfl : imm = 0x00#8 := by simpa [Instr.wellFormed] using hi
    cases h
    rcases s.decodeField_cases_of_legal _ with ⟨e, he, hfail⟩ | ⟨b, hdone⟩
    · exact ⟨e, false, he, congrArg State.status hfail⟩
    · exact ⟨.ok, false, by decide, congrArg State.status hdone⟩
  | swinit imm =>
    cases (execSwinit_of_legal himm).symm.trans h
    exact ⟨.ok, false, by decide, rfl⟩
  | swpoll imm =>
    rcases execSwpoll_status_of_legal himm h with hstatus | ⟨taken, hstatus⟩
    · exact ⟨.uninit, false, by decide, hstatus⟩
    · exact ⟨.ok, taken, by decide, hstatus⟩

/-- ERR_ILLEGAL is the error of the ill-formed commands, and of no other (R161). -/
theorem errOf_eq_illegal_iff {i : Instr} {s t : State} (h : exec i s = .next t) :
    errOf t.status = 1#4 ↔ i.wellFormed = false := by
  refine ⟨fun hcode => ?_, fun hi => ?_⟩
  · rw [← Bool.not_eq_true]
    intro hi
    obtain ⟨e, taken, he, hstatus⟩ := exec_status_of_wellFormed hi h
    exact errOf_statusWord_ne_illegal he taken (hstatus ▸ hcode)
  · cases (exec_of_illFormed i s hi).symm.trans h
    exact errOf_statusWord .illegal false

/-! ### Failure values -/

/-- Settles O41: `errOf_eq_illegal_iff` separates ERR_ILLEGAL from the other errors, and of the next states of `exec_cases` only
the failures of the command's own row are left. -/
theorem failingCommandWritesOnlyItsFailureValues : Obligations.FailingCommandWritesOnlyItsFailureValues := by
  intro i s t h herr
  have hok (taken : Bool) : ¬ errOf (statusWord .ok taken) ≠ 0#4 := not_not.mpr (errOf_statusWord .ok taken)
  have htaken (e : Err) : pollTakenOf (statusWord e false) = false := pollTakenOf_statusWord e false
  have hillegal : errOf (statusWord .illegal false) = 1#4 := errOf_statusWord .illegal false
  by_cases hcode : errOf t.status = 1#4
  · cases (exec_of_illFormed i s ((errOf_eq_illegal_iff h).mp hcode)).symm.trans h
    exact ⟨htaken _, (if_pos hcode).mpr rfl⟩
  rw [if_neg hcode]
  rcases exec_cases i s t h with
    ⟨imm, rfl, hbuild⟩ | ⟨imm, rfl, hpreset⟩ | ⟨imm, rfl, hcksum⟩ | ⟨imm, rfl, hlocate⟩ | ⟨imm, hi, hdecode⟩ |
    ⟨imm, rfl, hswinit⟩ | ⟨imm, rfl, hswpoll⟩
  · rcases hbuild with ⟨e, -, rfl⟩ | ⟨-, rfl⟩
    · exact ⟨htaken e, rfl, Memory.read_unspecified s.draws⟩
    · exact absurd herr (hok false)
  · rcases hpreset with rfl | rfl
    · exact absurd hillegal hcode
    · exact absurd herr (hok false)
  · rcases hcksum with rfl | ⟨e, rfl⟩ | ⟨-, rfl⟩
    · exact absurd hillegal hcode
    · exact ⟨htaken e, rfl⟩
    · exact absurd herr (hok false)
  · rcases hlocate with rfl | ⟨e, rfl⟩ | ⟨k, rfl⟩
    · exact absurd hillegal hcode
    · exact ⟨htaken e, rfl⟩
    · exact absurd herr (hok false)
  · rcases hdecode with rfl | ⟨e, rfl⟩ | ⟨b, rfl⟩
    · exact absurd hillegal hcode
    · rcases hi with rfl | rfl | rfl <;> exact ⟨htaken e, rfl⟩
    · exact absurd herr (hok false)
  · rcases hswinit with rfl | rfl
    · exact absurd hillegal hcode
    · exact absurd herr (hok false)
  · rcases hswpoll with ⟨e, rfl⟩ | rfl | ⟨-, -, rfl⟩
    · exact ⟨htaken e, rfl⟩
    · exact absurd herr (hok false)
    · exact absurd herr (hok true)

end Sys2Proof.Machine

/-! PROOFS. Reset and hazards (spec/70_reset_and_hazards.md): the bits of a frame that its checksum field does not cover, the
clock steps that mislead the poll gate, and the reset event. -/

namespace Sys2Proof.Machine

/-! ### Bits outside the checksum -/

/-- The packer reads the low nibbles of paired bytes only, so an odd last byte is not covered (spec/40_checksum.md R82). -/
theorem pack_congr {src src' : List Byte} (hlen : src.length = src'.length)
    (hagree : ∀ k < 2 * (src.length / 2), lowNibble (src.getD k 0x00#8) = lowNibble (src'.getD k 0x00#8)) :
    pack src = pack src' := by
  rw [pack_eq_map_range, pack_eq_map_range, ← hlen]
  refine List.map_congr_left fun i hi => ?_
  rw [List.mem_range] at hi
  exact join_eq_join_iff.mpr ⟨hagree _ (by omega), hagree _ (by omega)⟩

/-- The type byte reaches a frame's checksum by its low nibble only, and the payload by what the packer keeps of it: the eight
bytes before the payload are four whole pairs, so its bytes are paired from its first one on. -/
theorem frameCrc_congr {type type' : Byte} {payload payload' : List Byte} (htype : lowNibble type = lowNibble type')
    (hlen : payload.length = payload'.length) (hpack : pack payload = pack payload') :
    frameCrc type payload = frameCrc type' payload' := by
  have hpair : join 0x01#8 type = join 0x01#8 type' := join_eq_join_iff.mpr ⟨rfl, htype⟩
  simp only [frameCrc, List.cons_append, List.nil_append, pack_cons_cons, hlen, hpair, hpack]

/-- TX_BUF[3] and TX_BUF[4] of a built frame (spec/41_encoder.md R102). -/
theorem State.read_field_buildFrame (s : State) (type : Byte) (payload : List Byte) :
    (s.buildFrame type payload).txBuf.read 3 = (split (frameCrc type payload)).1 ∧
      (s.buildFrame type payload).txBuf.read 4 = (split (frameCrc type payload)).2 :=
  ⟨s.read_buildFrame type payload 3, s.read_buildFrame type payload 4⟩

/-- Settles O25: both checksum fields are splits of `frameCrc`, and `pack_congr` and `frameCrc_congr` make the two equal. -/
theorem uncoveredPayloadBitsLeaveTheChecksumField : Obligations.UncoveredPayloadBitsLeaveTheChecksumField := by
  intro imm imm' s s' t t' hlen h120 htype hpayload hnext hnext'
  cases (execBuild_of_le h120).symm.trans hnext
  cases (execBuild_of_le (hlen ▸ h120)).symm.trans hnext'
  rw [← hlen]
  have hpack : pack (s.payloadBuf.region 0 s.argLen.toNat) = pack (s'.payloadBuf.region 0 s.argLen.toNat) := by
    refine pack_congr (by simp) fun k hk => ?_
    rw [Memory.length_region] at hk
    rw [Memory.getD_region _ _ _ _ (by omega), Memory.getD_region _ _ _ _ (by omega), Nat.zero_add]
    exact lowNibble_eq_iff.mpr (hpayload k hk)
  have hcrc := frameCrc_congr (lowNibble_eq_iff.mpr htype) (by simp) hpack
  obtain ⟨hthree, hfour⟩ := s.read_field_buildFrame imm (s.payloadBuf.region 0 s.argLen.toNat)
  obtain ⟨hthree', hfour'⟩ := s'.read_field_buildFrame imm' (s'.payloadBuf.region 0 s.argLen.toNat)
  rw [hthree, hfour, hthree', hfour', hcrc]
  exact ⟨rfl, rfl⟩

/-! ### The clock and the poll gate -/

/-- A NOW that is `d` ms behind SW_LAST counts as `2 ^ 32 - d` ms elapsed (spec/43_debouncer.md R141). -/
theorem elapsed_of_back (last : Time) {d : Nat} (hpos : 1 ≤ d) (hd : d < 2 ^ 32) :
    elapsed last (last - BitVec.ofNat 32 d) = 2 ^ 32 - d := by
  have hlast := last.isLt
  simp only [elapsed, BitVec.toNat_sub, BitVec.toNat_ofNat]
  omega

/-- A NOW that is `gap` ms ahead of SW_LAST counts as `gap` mod `2 ^ 32` ms elapsed. -/
theorem elapsed_of_ahead (last : Time) (gap : Nat) : elapsed last (last + BitVec.ofNat 32 gap) = gap % 2 ^ 32 := by
  rw [elapsed, BitVec.add_comm, BitVec.add_sub_cancel, BitVec.toNat_ofNat]

/-- Settles O38: SWPOLL takes the poll exactly when the elapsed time mod 2^32 is at least 10, and the step back leaves at least
10 of it, the wrapped gap at most 9. -/
theorem clockStepsThatFoolTheGate : Obligations.ClockStepsThatFoolTheGate := by
  intro imm s himm hinit last
  refine ⟨fun d hpos hd hnow => ?_, fun gap hwrap hgap hnow => ?_⟩
  · have hback : elapsed last s.now = 2 ^ 32 - d := by rw [hnow, elapsed_of_back last hpos (by omega)]
    have hopen : 10 ≤ elapsed last s.now := by omega
    exact ⟨_, execSwpoll_of_gate_open himm hinit hopen, pollTakenOf_statusWord .ok true⟩
  · have hahead : elapsed last s.now = gap % 2 ^ 32 := by rw [hnow, elapsed_of_ahead]
    have hclosed : elapsed last s.now < 10 := by omega
    exact ⟨_, execSwpoll_of_gate_closed himm hinit hclosed, pollTakenOf_statusWord .ok false⟩

/-! ### The reset event -/

theorem step_reset {s : State} {rest : List Event} (hin : s.inbox = .reset :: rest) :
    step s = .next (State.resetFrom s.draws s.rxCap s.pin0 s.pin1 s.now rest s.lastRead) :=
  step_of_cons s _ _ hin

/-- Settles O2: the step answers `State.resetFrom`, whose registers are constants, whose buffers are unspecified, and whose
ports, parameter and pending events are the ones given to it. -/
theorem resetEventRestoresTheTableValues : Obligations.ResetEventRestoresTheTableValues := by
  intro s rest hin
  refine ⟨_, step_reset hin, rfl, rfl, rfl, rfl, rfl, rfl, rfl, rfl, rfl, rfl, rfl, ?_, ?_, ?_, rfl, rfl, rfl, rfl, rfl⟩
  · exact Memory.read_unspecified s.draws
  · exact Memory.read_unspecified (s.draws + 1)
  · exact Memory.read_unspecified (s.draws + 2)

end Sys2Proof.Machine
